-- ==== Sys2Proof/Word.lean ====
section
/-! DEFINITION. The widths of the machine: bytes, 16-bit cursors, 32-bit registers, 64-bit physical addresses
(00_scope.md R8, R9). -/

namespace Sys2Proof

/-- One byte of memory or of a frame. -/
abbrev Byte := BitVec 8

/-- A 16-bit quantity: a ring cursor (R55), an EEPROM word (R61). -/
abbrev Half := BitVec 16

/-- A register, and the value one register access moves (`REG_WIDTH`, R8, R40). -/
abbrev Word := BitVec 32

/-- A physical byte address of host memory (`PADDR_WIDTH`, R8, R61); its arithmetic wraps modulo 2^64 (R110). -/
abbrev Addr := BitVec 64

end Sys2Proof
end

