-- ==== Sys2Proof/Registers.lean ====
section
/-! DEFINITION. The operand types of the instructions: the 21 registers (R41), the sizes of a host memory access
(R114), the two descriptor formats (R150, R160), and a host register access as the host issues it (R140). -/

namespace Sys2Proof

/-- The modelled registers, exactly these 21 (R41). -/
inductive Reg where
  | status | eerd | icr | ics | ims | imc | rctl | tctl | tipg
  | rdbal | rdbah | rdlen | rdh | rdt
  | tdbal | tdbah | tdlen | tdh | tdt
  | ral0 | rah0
  deriving DecidableEq, Repr, Inhabited

/-- The sizes of a host memory access: 1, 2, 4 or 8 bytes (R114). -/
inductive Size where
  | one | two | four | eight
  deriving DecidableEq, Repr, Inhabited

/-- A transmit descriptor, 16 bytes (R150). -/
structure TxDesc where
  bufferAddr : Addr
  length : BitVec 16
  cso : BitVec 8
  cmd : BitVec 8
  sta : BitVec 4
  rsv : BitVec 4
  css : BitVec 8
  special : BitVec 16
  deriving DecidableEq, Repr, Inhabited

/-- A receive descriptor, 16 bytes (R160). -/
structure RxDesc where
  bufferAddr : Addr
  length : BitVec 16
  checksum : BitVec 16
  status : BitVec 8
  errors : BitVec 8
  special : BitVec 16
  deriving DecidableEq, Repr, Inhabited

/-- A host register access as issued: direction, byte offset, data (meaningful for writes only) and the access
width in bits (R140, R104). The offset is an unbounded natural (R9), so that an offset outside the window, or a
misaligned one, can be issued and fault (R105). -/
structure Access where
  width : Nat
  write : Bool
  offset : Nat
  data : Word
  deriving DecidableEq, Repr, Inhabited

end Sys2Proof
end

