-- ==== Sys2Proof/Syntax.lean ====
section
/-! DEFINITION. The instructions: one constructor per row of spec/opcode_table.json (R170). -/

namespace Sys2Proof

/-- What an agent executes: the 42 register accesses of the host (R141), the three descriptor forms the engines
execute (R150, R154, R160), and the host's memory operations and pseudo-operations (R206 to R213). A
pseudo-operation names its register by its byte offset, which is checked at each access (R214). -/
inductive Instr where
  | rdStatus
  | wrStatus (v : Word)
  | rdEerd
  | wrEerd (v : Word)
  | rdIcr
  | wrIcr (v : Word)
  | rdIcs
  | wrIcs (v : Word)
  | rdIms
  | wrIms (v : Word)
  | rdImc
  | wrImc (v : Word)
  | rdRctl
  | wrRctl (v : Word)
  | rdTctl
  | wrTctl (v : Word)
  | rdTipg
  | wrTipg (v : Word)
  | rdRdbal
  | wrRdbal (v : Word)
  | rdRdbah
  | wrRdbah (v : Word)
  | rdRdlen
  | wrRdlen (v : Word)
  | rdRdh
  | wrRdh (v : Word)
  | rdRdt
  | wrRdt (v : Word)
  | rdTdbal
  | wrTdbal (v : Word)
  | rdTdbah
  | wrTdbah (v : Word)
  | rdTdlen
  | wrTdlen (v : Word)
  | rdTdh
  | wrTdh (v : Word)
  | rdTdt
  | wrTdt (v : Word)
  | rdRal0
  | wrRal0 (v : Word)
  | rdRah0
  | wrRah0 (v : Word)
  | txd (d : TxDesc)
  | txdExt (d : TxDesc)
  | rxd (d : RxDesc)
  | ld (n : Size) (a : Addr)
  | st (n : Size) (a : Addr) (v : BitVec 64)
  | copy (a : Addr) (bytes : List Byte)
  | setBits (offset : Nat) (m : Word)
  | clearBits (offset : Nat) (m : Word)
  | writeField (offset : Nat) (m : Word) (shift : Nat) (v : Word)
  deriving DecidableEq, Repr, Inhabited

end Sys2Proof
end

