-- ==== Sys2Proof/HostProgram.lean ====
section
/-! DEFINITION. What the agents are told to do, as plain data: the host's program with the phases of its duties
(R270, R340, R343, R370, R371, R396, R636, R638, R714 to R724), and the turns of the interleaving (R120). -/

namespace Sys2Proof

/-- The host operations that have no device encoding (R170, R181). -/
inductive HostOp where
  | ld (n : Size) (a : Addr)
  | st (n : Size) (a : Addr) (v : BitVec 64)
  | copy (a : Addr) (bytes : List Byte)
  | setBits (offset : Nat) (m : Word)
  | clearBits (offset : Nat) (m : Word)
  | writeField (offset : Nat) (m : Word) (shift : Nat) (v : Word)
  deriving DecidableEq, Repr, Inhabited

/-- The value a host duty returns (R610): a result code, the length and bytes of a successful `receive`, or the
value of `isEmpty`, `readWord`, `readStationAddress`. -/
inductive Result where
  | ok | ringFull | ringEmpty | bufferTooSmall | oversizedPacket
  | deviceMappingFailure | deviceNotResponding | rejected | blocked
  | received (length : BitVec 16) (bytes : List Byte)
  | empty (b : Bool)
  | word (w : Half)
  | station (sa : BitVec 48)
  deriving DecidableEq, Repr, Inhabited

/-- A consumer registered as blocked on receive, with the capacity of its destination buffer (R630, R638). -/
structure Consumer where
  id : Nat
  capacity : Nat
  deriving DecidableEq, Repr, Inhabited

/-- The host's own copies of what it programmed, and its parameters (R8, R270, R340, R714): ring bases, ring sizes,
buffer addresses by index, `TX_BUF_SIZE`, `EE_POLL_LIMIT`. -/
structure Driver where
  txRing : Addr
  nTx : Nat
  txBuf : List Addr
  txBufSize : Nat
  rxRing : Addr
  nRx : Nat
  rxBuf : List Addr
  eePollLimit : Nat
  deriving DecidableEq, Repr, Inhabited

/-- The host's duties, run in the thread context (R630). -/
inductive Duty where
  /-- Ring and buffer construction (R714, R715). -/
  | constructRings (d : Driver)
  /-- Initialisation steps 1 to 5 (R720 to R724); `mapped` is what the external collaborator reports at step 1. -/
  | initialise (mapped : Bool)
  | transmit (p : List Byte)
  | receive (capacity : Nat)
  | isEmpty
  | blockingReceive (c : Consumer)
  | readWord (k : Byte)
  | readStationAddress
  | generateTestInterrupt
  /-- A pseudo-operation run with interrupts disabled (R631). -/
  | pseudo (o : HostOp)
  deriving DecidableEq, Repr, Inhabited

/-- One host command: what the host does in one step. The first group is what a host program is written with; the
others are the later phases of the duties, each at most one access. -/
inductive HostCmd where
  | access (a : Access)
  | op (o : HostOp)
  | call (d : Duty)
  | setIe (b : Bool)
  /-- The platform step of R724: unmask the line at the interrupt controller (R622). -/
  | unmaskIrq
  /-- Return a value from a duty. -/
  | ret (v : Result)
  -- transmit (R270)
  | transmit (p : List Byte)
  | txSlot (p : List Byte)
  | txNext (p : List Byte) (t : Nat)
  | txQueue (p : List Byte) (t : Nat)
  -- receive (R340)
  | receive (capacity : Nat)
  | rxSlot
  | rxLength (s : Nat)
  | rxData (s : Nat)
  -- isEmpty (R343)
  | isEmpty
  | emptySlot
  | emptyAnswer
  -- readWord (R370), readStationAddress (R371)
  | readWord (k : Byte)
  | pollEerd (n : Nat)
  | pollCheck (n : Nat)
  | stationWords (ws : List Half)
  | programFilter
  -- blockingReceive (R638)
  | blockingReceive (c : Consumer)
  | register (c : Consumer)
  -- the bridge (R636)
  | bridge
  | bridgeCheck
  | bridgeComplete
  deriving DecidableEq, Repr, Inhabited

/-- A turn of the interleaving (R120, R605): which agent steps, and what the wire offers. -/
inductive Turn where
  /-- The host's next step in its current context. -/
  | host
  | txEngine
  | rxEngine
  | rxTimer
  | eeprom
  | otherCause
  /-- The wire offers frame `f`, whose FCS is good iff `ok` (R315). -/
  | wire (f : List Byte) (ok : Bool)
  /-- The platform delivers the asserted line (R622). -/
  | deliver
  /-- The platform enters the interrupt context with the line deasserted (R623). -/
  | spurious
  /-- The external scheduler terminates the blocked consumer (R638). -/
  | terminate
  deriving DecidableEq, Repr, Inhabited

end Sys2Proof
end

