-- ==== Sys2Proof/Config.lean ====
section
/-! DEFINITION. The parameters of R8: those with a value are definitions, those marked OPEN and the free values
(`draw`, R10) are opaque constants of which nothing can be proved but their type. -/

namespace Sys2Proof.Config

/-- `REG_WIDTH` (R8). -/
def regWidth : Nat := 32

/-- `REG_WINDOW_LEN` (R8). -/
def regWindowLen : Nat := 0x20000

/-- `DESC_SIZE` (R8). -/
def descSize : Nat := 16

/-- `MAX_RING` (R8): the largest ring the length register can express. -/
def maxRing : Nat := 65528

/-- `MAX_TX_DESC_LEN` (R8, R261). -/
def maxTxDescLen : Nat := 16288

/-- `MIN_FRAME` (R8, R315). -/
def minFrame : Nat := 64

/-- `MAX_FRAME` (R8, R315). -/
def maxFrame : Nat := 1522

/-- `EEPROM_WORDS` (R8, R364). -/
def eepromWords : Nat := 64

/-- `RX_BUF_SIZE` (R8, R115, R716); DESIGN CHOICE (safe) log 13: the one value of R8's table, whatever BSIZE selects. -/
def rxBufSize : Nat := 2048

/-- The free values of width `w` (R10 `draw`): the `n`-th draw, `n` being `State.draws`. DESIGN CHOICE (safe) log 5. -/
opaque draw (w n : Nat) : BitVec w

/-- The free choice of which agent steps (R120, R605), at step number `n`, where `State.agenda` names none.
DESIGN CHOICE (safe) log 2. -/
opaque freeTurn (n : Nat) : Turn

/-- `EEPROM` (R8, R365): the contents, OPEN. Log 6. -/
opaque eeprom (a : BitVec 8) : Half

/-- `wireImage` (R8, R260): OPEN, a function of the frame bytes, IFCS and TCTL.PSP alone. Log 6. -/
opaque wireImage (bytes : List Byte) (ifcs psp : Bool) : List Byte

/-- The address the host takes for buffer `i`, in step number `n`, where its own list has none (R270, R340): the spec gives
none. DESIGN CHOICE (safe) log 37. -/
opaque noBuffer (n i : Nat) : Addr

/-- How many frames more than one the receive FIFO holds; OPEN. Log 6. -/
opaque rxFifoExtra : Nat

/-- `RX_FIFO_FRAMES` (R8, R317): OPEN, at least 1. -/
def rxFifoFrames : Nat := rxFifoExtra + 1

end Sys2Proof.Config
end

