-- ==== Sys2Proof/Decode.lean ====
section
/-! DEFINITION. Decoding (R140 to R142, R150 to R160) and the encoder written from the same tables. -/

namespace Sys2Proof

/-! ### Byte order -/

/-- The bytes of a list as one little-endian number (R100). -/
def leNat : List Byte → Nat
  | [] => 0
  | b :: bs => b.toNat + 256 * leNat bs

/-- The `n` low bytes of a number, least significant first (R100). -/
def leBytes : Nat → Nat → List Byte
  | 0, _ => []
  | n + 1, v => BitVec.ofNat 8 v :: leBytes n (v / 256)

/-- The number of bytes of a host memory access (R114). -/
def Size.bytes : Size → Nat
  | .one => 1
  | .two => 2
  | .four => 4
  | .eight => 8

/-! ### The register access format -/

/-- The register offsets (R141). -/
def Reg.offset : Reg → Nat
  | .status => 0x00008
  | .eerd => 0x00014
  | .icr => 0x000C0
  | .ics => 0x000C8
  | .ims => 0x000D0
  | .imc => 0x000D8
  | .rctl => 0x00100
  | .tctl => 0x00400
  | .tipg => 0x00410
  | .rdbal => 0x02800
  | .rdbah => 0x02804
  | .rdlen => 0x02808
  | .rdh => 0x02810
  | .rdt => 0x02818
  | .tdbal => 0x03800
  | .tdbah => 0x03804
  | .tdlen => 0x03808
  | .tdh => 0x03810
  | .tdt => 0x03818
  | .ral0 => 0x05400
  | .rah0 => 0x05404

/-- The 21 registers, in the order of R141's table. -/
def Reg.all : List Reg :=
  [.status, .eerd, .icr, .ics, .ims, .imc, .rctl, .tctl, .tipg, .rdbal, .rdbah, .rdlen, .rdh, .rdt,
   .tdbal, .tdbah, .tdlen, .tdh, .tdt, .ral0, .rah0]

/-- The register at an offset, if R141's table has one there. -/
def Reg.ofOffset (o : Nat) : Option Reg :=
  Reg.all.find? (fun r => r.offset == o)

/-- The access key `{W, offset[16:0]}` (R140). -/
def Access.key (a : Access) : BitVec 18 :=
  BitVec.ofBool a.write ++ BitVec.ofNat 17 a.offset

/-- A 32-bit read of the register at offset `o` (R181 `rd`). -/
def Access.rd (o : Nat) : Access := ⟨Config.regWidth, false, o, 0⟩

/-- A 32-bit write of `v` to the register at offset `o` (R181 `wr`). -/
def Access.wr (o : Nat) (v : Word) : Access := ⟨Config.regWidth, true, o, v⟩

/-- The instruction that reads a register (R141, read keys). -/
def Reg.readInstr : Reg → Instr
  | .status => .rdStatus
  | .eerd => .rdEerd
  | .icr => .rdIcr
  | .ics => .rdIcs
  | .ims => .rdIms
  | .imc => .rdImc
  | .rctl => .rdRctl
  | .tctl => .rdTctl
  | .tipg => .rdTipg
  | .rdbal => .rdRdbal
  | .rdbah => .rdRdbah
  | .rdlen => .rdRdlen
  | .rdh => .rdRdh
  | .rdt => .rdRdt
  | .tdbal => .rdTdbal
  | .tdbah => .rdTdbah
  | .tdlen => .rdTdlen
  | .tdh => .rdTdh
  | .tdt => .rdTdt
  | .ral0 => .rdRal0
  | .rah0 => .rdRah0

/-- The instruction that writes `v` to a register (R141, write keys). -/
def Reg.writeInstr (v : Word) : Reg → Instr
  | .status => .wrStatus v
  | .eerd => .wrEerd v
  | .icr => .wrIcr v
  | .ics => .wrIcs v
  | .ims => .wrIms v
  | .imc => .wrImc v
  | .rctl => .wrRctl v
  | .tctl => .wrTctl v
  | .tipg => .wrTipg v
  | .rdbal => .wrRdbal v
  | .rdbah => .wrRdbah v
  | .rdlen => .wrRdlen v
  | .rdh => .wrRdh v
  | .rdt => .wrRdt v
  | .tdbal => .wrTdbal v
  | .tdbah => .wrTdbah v
  | .tdlen => .wrTdlen v
  | .tdh => .wrTdh v
  | .tdt => .wrTdt v
  | .ral0 => .wrRal0 v
  | .rah0 => .wrRah0 v

/-- Why an access is rejected before any register's own rule, in the order of R142. -/
inductive AccessReject where
  /-- Not 32 bits wide: refusal F4 (R104). -/
  | unsupportedWidth (offset width : Nat)
  /-- Offset not a multiple of 4: fault F1 (R105). -/
  | misaligned (offset : Nat)
  /-- Offset not below `REG_WINDOW_LEN`: fault F2 (R105). -/
  | outOfRange (offset : Nat)
  /-- Aligned, inside the window, not in R141: refusal F3 (R42, R602). -/
  | unmodelled (offset : Nat)
  deriving DecidableEq, Repr

/-- Checks (2) to (4) of R142: the register an offset names. -/
def decodeOffset (o : Nat) : Except AccessReject Reg :=
  if o % 4 ≠ 0 then .error (.misaligned o)
  else if o ≥ Config.regWindowLen then .error (.outOfRange o)
  else match Reg.ofOffset o with
    | none => .error (.unmodelled o)
    | some r => .ok r

/-- Decoding a register access: the checks of R142 in their order, then the access's instruction. -/
def decodeAccess (a : Access) : Except AccessReject Instr :=
  if a.width ≠ Config.regWidth then .error (.unsupportedWidth a.offset a.width)
  else match decodeOffset a.offset with
    | .error e => .error e
    | .ok r => .ok (if a.write then r.writeInstr a.data else r.readInstr)

/-! ### The descriptor formats -/

/-- The fields of a transmit descriptor in its 128-bit little-endian value (R150). -/
def TxDesc.ofBits (v : BitVec 128) : TxDesc where
  bufferAddr := v.extractLsb' 0 64
  length := v.extractLsb' 64 16
  cso := v.extractLsb' 80 8
  cmd := v.extractLsb' 88 8
  sta := v.extractLsb' 96 4
  rsv := v.extractLsb' 100 4
  css := v.extractLsb' 104 8
  special := v.extractLsb' 112 16

/-- The 128-bit value of a transmit descriptor (R150). -/
def TxDesc.toBits (d : TxDesc) : BitVec 128 :=
  d.special ++ d.css ++ d.rsv ++ d.sta ++ d.cmd ++ d.cso ++ d.length ++ d.bufferAddr

/-- The fields of a receive descriptor in its 128-bit little-endian value (R160). -/
def RxDesc.ofBits (v : BitVec 128) : RxDesc where
  bufferAddr := v.extractLsb' 0 64
  length := v.extractLsb' 64 16
  checksum := v.extractLsb' 80 16
  status := v.extractLsb' 96 8
  errors := v.extractLsb' 104 8
  special := v.extractLsb' 112 16

/-- The 128-bit value of a receive descriptor (R160). -/
def RxDesc.toBits (d : RxDesc) : BitVec 128 :=
  d.special ++ d.errors ++ d.status ++ d.checksum ++ d.length ++ d.bufferAddr

/-- The command bit that selects the extended formats (R151, R154): bit 93 of the descriptor. -/
def TxDesc.dext (d : TxDesc) : Bool := d.cmd.getLsbD 5

/-- Decoding what the transmit engine reads: cmd.DEXT selects the row (R154, R170). -/
def decodeTxDesc (v : BitVec 128) : Instr :=
  let d := TxDesc.ofBits v
  if d.dext then .txdExt d else .txd d

/-- Decoding what the receive engine reads: one form (R170). -/
def decodeRxDesc (v : BitVec 128) : Instr := .rxd (RxDesc.ofBits v)

/-! ### Any agent's instruction -/

/-- What an agent presents for decoding: a register access, a descriptor as its 128-bit value, or a host operation,
which has no device encoding and stands for itself (R170). -/
inductive Code where
  | access (a : Access)
  | txDesc (v : BitVec 128)
  | rxDesc (v : BitVec 128)
  | hostOp (o : HostOp)
  deriving DecidableEq, Repr

/-- The instruction a host operation is. -/
def HostOp.instr : HostOp → Instr
  | .ld n a => .ld n a
  | .st n a v => .st n a v
  | .copy a bs => .copy a bs
  | .setBits o m => .setBits o m
  | .clearBits o m => .clearBits o m
  | .writeField o m s v => .writeField o m s v

/-- Decoding, total: an instruction, or the name of the check that rejects it. -/
def decode : Code → Except AccessReject Instr
  | .access a => decodeAccess a
  | .txDesc v => .ok (decodeTxDesc v)
  | .rxDesc v => .ok (decodeRxDesc v)
  | .hostOp o => .ok o.instr

/-! ### Bytes of a register access -/

/-- Why a byte sequence is no register access. -/
inductive ByteReject where
  /-- Fewer bytes than the key, or than the key and the data of a write. -/
  | truncated (n : Nat)
  /-- A bit above the 18 of the access key is set. -/
  | keyTooWide (key : Nat)
  deriving DecidableEq, Repr

/-- A register access laid out as bytes: the access key (R140) in 3 bytes, then for a write its data in 4, each least
significant byte first. DESIGN CHOICE (safe) log 8: the spec gives the key as a number and no byte layout for it. -/
def Access.ofBytes (b : List Byte) : Except ByteReject Access :=
  if b.length < 3 then .error (.truncated b.length)
  else
    let k := leNat (b.take 3)
    if k ≥ 2 ^ 18 then .error (.keyTooWide k)
    else
      let key := BitVec.ofNat 18 k
      let o := (key.extractLsb' 0 17).toNat
      if key.getLsbD 17 then
        if b.length < 7 then .error (.truncated b.length)
        else .ok (Access.wr o (BitVec.ofNat 32 (leNat ((b.drop 3).take 4))))
      else .ok (Access.rd o)

/-- The bytes of a register access, laid out as `Access.ofBytes` reads them. -/
def Access.toBytes (a : Access) : List Byte :=
  leBytes 3 a.key.toNat ++ (if a.write then leBytes 4 a.data.toNat else [])

/-! ### The encoder -/

/-- The read access of a register (R141). -/
def Reg.readCode (r : Reg) : Code := .access (Access.rd r.offset)

/-- The write access of a register (R141). -/
def Reg.writeCode (r : Reg) (v : Word) : Code := .access (Access.wr r.offset v)

/-- The code of an instruction (R140, R141, R150, R160, R170). -/
def encode : Instr → Code
  | .rdStatus => Reg.status.readCode
  | .wrStatus v => Reg.status.writeCode v
  | .rdEerd => Reg.eerd.readCode
  | .wrEerd v => Reg.eerd.writeCode v
  | .rdIcr => Reg.icr.readCode
  | .wrIcr v => Reg.icr.writeCode v
  | .rdIcs => Reg.ics.readCode
  | .wrIcs v => Reg.ics.writeCode v
  | .rdIms => Reg.ims.readCode
  | .wrIms v => Reg.ims.writeCode v
  | .rdImc => Reg.imc.readCode
  | .wrImc v => Reg.imc.writeCode v
  | .rdRctl => Reg.rctl.readCode
  | .wrRctl v => Reg.rctl.writeCode v
  | .rdTctl => Reg.tctl.readCode
  | .wrTctl v => Reg.tctl.writeCode v
  | .rdTipg => Reg.tipg.readCode
  | .wrTipg v => Reg.tipg.writeCode v
  | .rdRdbal => Reg.rdbal.readCode
  | .wrRdbal v => Reg.rdbal.writeCode v
  | .rdRdbah => Reg.rdbah.readCode
  | .wrRdbah v => Reg.rdbah.writeCode v
  | .rdRdlen => Reg.rdlen.readCode
  | .wrRdlen v => Reg.rdlen.writeCode v
  | .rdRdh => Reg.rdh.readCode
  | .wrRdh v => Reg.rdh.writeCode v
  | .rdRdt => Reg.rdt.readCode
  | .wrRdt v => Reg.rdt.writeCode v
  | .rdTdbal => Reg.tdbal.readCode
  | .wrTdbal v => Reg.tdbal.writeCode v
  | .rdTdbah => Reg.tdbah.readCode
  | .wrTdbah v => Reg.tdbah.writeCode v
  | .rdTdlen => Reg.tdlen.readCode
  | .wrTdlen v => Reg.tdlen.writeCode v
  | .rdTdh => Reg.tdh.readCode
  | .wrTdh v => Reg.tdh.writeCode v
  | .rdTdt => Reg.tdt.readCode
  | .wrTdt v => Reg.tdt.writeCode v
  | .rdRal0 => Reg.ral0.readCode
  | .wrRal0 v => Reg.ral0.writeCode v
  | .rdRah0 => Reg.rah0.readCode
  | .wrRah0 v => Reg.rah0.writeCode v
  | .txd d => .txDesc d.toBits
  | .txdExt d => .txDesc d.toBits
  | .rxd d => .rxDesc d.toBits
  | .ld n a => .hostOp (.ld n a)
  | .st n a v => .hostOp (.st n a v)
  | .copy a bs => .hostOp (.copy a bs)
  | .setBits o m => .hostOp (.setBits o m)
  | .clearBits o m => .hostOp (.clearBits o m)
  | .writeField o m s v => .hostOp (.writeField o m s v)

/-! ### Words numbered as the opcode table numbers them -/

/-- The longest register access in bytes: a 3-byte key and 4 bytes of data (log 8). -/
def maxAccessBytes : Nat := 7

/-- The bytes of a table word of `nbits` bits, followed by zero bytes up to the longest access. -/
def tableBytes (nbits w : Nat) : List Byte :=
  leBytes (nbits / 8) w ++ List.replicate (maxAccessBytes - nbits / 8) 0

/-- The code a table word stands for: 128 bits are a descriptor on the transmit ring (a receive descriptor is told
apart by its ring, not by its bits, R170; log 9), anything else is a register access. -/
def tableCode (nbits w : Nat) : Except ByteReject Code :=
  if nbits = 128 then .ok (.txDesc (BitVec.ofNat 128 (leNat (leBytes 16 w))))
  else (Access.ofBytes (tableBytes nbits w)).map Code.access

/-- The instruction the decoder reads from a word of the opcode table. -/
def decodeTableWord (nbits w : Nat) : Option Instr :=
  match tableCode nbits w with
  | .error _ => none
  | .ok c => (decode c).toOption

end Sys2Proof
end

