-- ==== Sys2Proof/Machine/State.lean ====
section
/-! DEFINITION. The state of the machine as plain data (10_state.md, 60_exceptions.md R603, R630), the named reasons a
step stops, and the state after reset (R64, R701). -/

namespace Sys2Proof.Machine

/-- The agents whose steps are interleaved (R120, R630; 70_reset_and_hazards.md R740). -/
inductive Agent where
  | host | txEngine | rxEngine | rxTimer | eepromUnit | otherCause | wire | platform
  deriving DecidableEq, Repr

/-- The two descriptor rings (R57). -/
inductive Ring where
  | tx | rx
  deriving DecidableEq, Repr

/-- The faults of R601, each with what R601 records. A step that raises one sets the fault mark (R603); from then on
`step` answers the fault and the machine stops. All are safe: they are the spec's own stops. -/
inductive Fault where
  /-- F1, raised by a register access whose offset is no multiple of 4 (R200, R201). Safe. -/
  | misalignedRegisterAccess (offset : Nat)
  /-- F2, raised by a register access at or beyond `REG_WINDOW_LEN` (R200, R201). Safe. -/
  | registerOffsetOutOfRange (offset : Nat)
  /-- F5, raised by a head or tail write out of range and by an enable with a cursor out of range (R243 to R245,
  R303 to R305). Safe. -/
  | cursorOutOfRange (reg : Reg) (value : Word)
  /-- F6, raised by a base, length or head write while the ring's EN = 1 (R240 to R243, R300 to R303). Safe. -/
  | configWhileEnabled (reg : Reg)
  /-- F7, raised by an enable with an illegal length (R245, R305). Safe. -/
  | badRingLength (len : Word)
  /-- F8, raised by an enable with base bits 3:0 nonzero (R245, R305). Safe. -/
  | badRingBase (bal : Word)
  /-- F9, raised by an engine's access to a byte not in `MEM` (R111, R256, R321). Safe. -/
  | dmaUnmapped (address : Addr) (engine : Ring) (index : Nat)
  /-- F10, raised by a host write to a device-owned descriptor or buffer and by a host read of a device-owned buffer
  (R116, R206 to R208). Safe. -/
  | ownershipRace (address : Addr)
  /-- F12, raised by a transmit descriptor of length 0 or above `MAX_TX_DESC_LEN` (R256, R261). Safe. -/
  | badTxLength (index : Nat)
  /-- F14, raised by an EERD write while a read is in progress (R360, R362). Safe. -/
  | eepromBusy (value : Word)
  deriving DecidableEq, Repr

/-- The refusals of R601, each with what R601 records. A step that raises one sets the refusal mark (R603); from then
on `step` answers the refusal and the machine stops. -/
inductive Refusal where
  /-- Raised by an arm of `exec` whose instruction has no meaning yet; safe. -/
  | notModelled (mnemonic : String)
  /-- F3, raised by an aligned in-window access to a register R141 does not list (R42, R602). Safe. -/
  | unmodelledRegister (offset : Nat)
  /-- F4, raised by a register access that is not 32 bits wide (R104). Safe. -/
  | unsupportedAccessWidth (offset width : Nat)
  /-- F11, raised by a transmit descriptor with DEXT = 1 (R262). Safe. -/
  | extendedDescriptor (index : Nat)
  /-- F13, raised by an enable with a refused-if-set bit and by filtering with AV = 1 and AS nonzero (R245, R305,
  R316). Safe. -/
  | unmodelledControlField (reg : Reg) (value : Word)
  /-- F15, raised by a write to STATUS (R205). Safe. -/
  | writeToReadOnly (value : Word)
  /-- F16, raised by a received frame longer than the RCTL buffer size (R321, R322). Safe. -/
  | rxFrameExceedsBuffer (length : Nat)
  /-- F17, raised by a transmit descriptor with IC, bit 4 or VLE set (R262). Safe. -/
  | unmodelledDescriptorField (index : Nat)
  /-- F18, raised by a host memory access to a byte not in `MEM`, or misaligned (R206 to R208). Safe. -/
  | hostAccessUnmapped (address : Addr)
  /-- F19, raised by `writeField` with a shift of 32 or more (R213). Safe. -/
  | pseudoOpShiftOutOfRange (shift : Nat)
  deriving DecidableEq, Repr

/-- A mark (R603): the reason with its recorded information, and the step that raised it, named by its agent and its
number in the interleaving (DESIGN CHOICE, safe, log 10). -/
structure Mark (ρ : Type) where
  what : ρ
  agent : Agent
  step : Nat
  deriving DecidableEq, Repr

/-- Why an offered frame was dropped (R315). -/
inductive DropReason where
  | disabled | badFcs | length | filtered | overrun
  deriving DecidableEq, Repr

/-- The events of the history (R640). -/
inductive Event where
  | txFrame (image : List Byte)
  | rxDrop (f : List Byte) (reason : DropReason)
  | drain (causes : Word)
  | deliver (length : BitVec 16) (bytes : List Byte)
  deriving DecidableEq, Repr

/-- The host's contexts (R630). -/
inductive Ctx where
  | thread | irq
  deriving DecidableEq, Repr

/-- The machine. -/
structure State where
  -- the register block (R41, R46 to R56); STATUS, ICS, IMC and EERD.START hold no stored value
  eerdAddr : BitVec 8
  eerdDone : Bool
  eerdData : Half
  icr : Word
  mask : Word
  rctl : Word
  tctl : Word
  tipg : Word
  rdbal : Word
  rdbah : Word
  rdlen : Word
  rdh : Half
  rdt : Half
  tdbal : Word
  tdbah : Word
  tdlen : Word
  tdh : Half
  tdt : Half
  ral0 : Word
  rah0 : Word
  -- internal device state (R62)
  txAccum : List Byte
  rxFifo : List (List Byte)
  rxTimerArmed : Bool
  eeBusy : Bool
  history : List Event
  fault : Option (Mark Fault)
  refused : Option (Mark Refusal)
  -- host physical memory MEM (R61): contents, and the (base, size) ranges of addresses that exist
  mem : List Host.Cell
  memMap : List (Nat × Nat)
  -- the host (R630): its context's program position, the saved thread position (R632), the value last read (R181),
  -- the values its duties returned (newest first), its own copies of what it programmed (R270)
  ctx : Ctx
  ie : Bool
  irqUnmasked : Bool
  blocked : Option Consumer
  code : List HostCmd
  saved : List HostCmd
  r : BitVec 64
  results : List Result
  drv : Driver
  -- the model's own: turns still to come, steps begun, values drawn
  agenda : List Turn
  steps : Nat
  draws : Nat
  deriving DecidableEq, Repr

/-- The machine right after reset (R64, R701). `MEM` is not reset by the device: nothing is listed (log 3) and every
address exists (log 4). The host's program, its read result, its results and its copies are empty (logs 7, 18, 26); its parameters are the least
that R8 admits (log 26). -/
def State.reset : State where
  eerdAddr := 0
  eerdDone := false
  eerdData := 0
  icr := 0
  mask := 0
  rctl := 0
  tctl := 0
  tipg := 0
  rdbal := 0
  rdbah := 0
  rdlen := 0
  rdh := 0
  rdt := 0
  tdbal := 0
  tdbah := 0
  tdlen := 0
  tdh := 0
  tdt := 0
  ral0 := 0
  rah0 := 0
  txAccum := []
  rxFifo := []
  rxTimerArmed := false
  eeBusy := false
  history := []
  fault := none
  refused := none
  mem := []
  memMap := [(0, 2 ^ 64)]
  ctx := .thread
  ie := false
  irqUnmasked := false
  blocked := none
  code := []
  saved := []
  r := 0
  results := []
  drv := ⟨0, 8, [], 0, 0, 8, [], 1⟩
  agenda := []
  steps := 0
  draws := 0

end Sys2Proof.Machine
end

