-- ==== Sys2Proof/Machine/Flags.lean ====
section
/-! DEFINITION. The flags and control bits (R45 to R52, R151, R152, R161) and the status bytes the engines write. -/

namespace Sys2Proof.Machine

/-! ### Interrupt causes (R48) -/

/-- `CAUSE_MASK`: the cause bits 16:0. -/
def causeMask : Word := 0x0001FFFF

/-- `CAUSE_OTHER`: every cause but RXT0. -/
def causeOther : Word := 0x0001FF7F

/-- RXT0, "receive timer", bit 7. -/
def rxt0 : Word := 0x00000080

/-- Latching causes: `ICR | c`, whatever the mask (R390). -/
def latch (icr c : Word) : Word := icr ||| c

/-- Write 1 to clear, on the cause bits only (R392, R399). -/
def clearCauses (x v : Word) : Word := x &&& ~~~(v &&& causeMask)

/-- Write 1 to set, on the cause bits only (R394, R397). -/
def setCauses (x v : Word) : Word := x ||| (v &&& causeMask)

/-- The interrupt line: asserted exactly when `(ICR & MASK) ≠ 0`; a level, not stored (R63, R620). -/
def State.line (s : State) : Bool := s.icr &&& s.mask != 0

/-! ### TCTL (R50) -/

/-- TCTL.EN. -/
def tctlEn (v : Word) : Bool := v.getLsbD 1

/-- TCTL.PSP. -/
def tctlPsp (v : Word) : Bool := v.getLsbD 3

/-- The refused-if-set bits of TCTL: 0, 2 and 31:22 (R245). -/
def tctlRefused : Word := 0xFFC00005

/-! ### RCTL (R52) -/

/-- RCTL.EN. -/
def rctlEn (v : Word) : Bool := v.getLsbD 1

/-- RCTL.BAM: accept broadcast frames. -/
def rctlBam (v : Word) : Bool := v.getLsbD 15

/-- RCTL.BSIZE, bits 17:16. -/
def rctlBsize (v : Word) : BitVec 2 := v.extractLsb' 16 2

/-- RCTL.SECRC: strip the FCS. -/
def rctlSecrc (v : Word) : Bool := v.getLsbD 26

/-- The refused-if-set bits of RCTL (R52, R305). -/
def rctlRefused : Word := 0xFBEC4CFD

/-! ### RAH0 (R56) -/

/-- RAH0.AV: the filter entry is valid. -/
def rahAv (v : Word) : Bool := v.getLsbD 31

/-- RAH0.AS, bits 17:16. -/
def rahAs (v : Word) : BitVec 2 := v.extractLsb' 16 2

/-! ### EERD (R47) -/

/-- EERD.START of a written value. -/
def eerdStart (v : Word) : Bool := v.getLsbD 0

/-- The DONE bit of a value read from EERD. -/
def eerdDoneBit (v : Word) : Bool := v.getLsbD 4

/-! ### Descriptor bits -/

/-- The transmit command bits (R151). -/
def cmdEop (c : BitVec 8) : Bool := c.getLsbD 0

def cmdIfcs (c : BitVec 8) : Bool := c.getLsbD 1

def cmdIc (c : BitVec 8) : Bool := c.getLsbD 2

def cmdRs (c : BitVec 8) : Bool := c.getLsbD 3

def cmdBit4 (c : BitVec 8) : Bool := c.getLsbD 4

def cmdVle (c : BitVec 8) : Bool := c.getLsbD 6

/-- A command that asks for checksum offload, the reserved bit 4 or VLAN (R262: F17). -/
def cmdUnmodelled (c : BitVec 8) : Bool := cmdIc c || cmdBit4 c || cmdVle c

/-- DD of a status byte (R152, R161). -/
def statusDd (b : Byte) : Bool := b.getLsbD 0

/-- The status byte of a transmit write-back: DD = 1, bits 7:1 drawn (R257). -/
def txStatus (drawn : BitVec 7) : Byte := drawn ++ 1#1

/-- The status byte of a receive write-back: DD = EOP = 1, bits 7:2 drawn (R325). -/
def rxStatus (drawn : BitVec 6) : Byte := drawn ++ 3#2

end Sys2Proof.Machine
end

