-- ==== Sys2Proof/Machine/Ops.lean ====
section
/-! DEFINITION. The shared operations: host memory, the fault and refusal marks, free values, the history, the
value a read returns, the host's program position, and interrupt entry and return. -/

namespace Sys2Proof.Machine

/-- What a meaning answers. -/
abbrev Out := Host.Outcome State Fault Refusal

/-! ### Memory (R61, R100, R110)

A list of (address, byte) cells, addresses strictly rising below 2^64, no cell holding what an unlisted address reads
as. -/

abbrev Memory := List Host.Cell

/-- What a byte of `MEM` that no cell lists reads as. DESIGN CHOICE (unsafe) log 3. -/
def unlistedByte : Byte := 0

/-- The byte at an address. -/
def memGet : Memory → Nat → Byte
  | [], _ => unlistedByte
  | (k, v) :: m, a => if k = a then v else memGet m a

/-- Memory without the cell of an address. -/
def memErase : Memory → Nat → Memory
  | [], _ => []
  | (k, v) :: m, a => if k = a then memErase m a else (k, v) :: memErase m a

/-- Insert a cell in address order. -/
def memInsert : Memory → Nat → Byte → Memory
  | [], a, b => [(a, b)]
  | (k, v) :: m, a, b => if a < k then (a, b) :: (k, v) :: m else (k, v) :: memInsert m a b

/-- Write one byte, keeping the canonical form. -/
def memSet (m : Memory) (a : Nat) (b : Byte) : Memory :=
  if b = unlistedByte then memErase m a else memInsert (memErase m a) a b

/-- The canonical form. -/
def memWf : Memory → Bool
  | [] => true
  | [(k, v)] => decide (k < 2 ^ 64) && v != unlistedByte
  | (k, v) :: (k', v') :: m => decide (k < k') && v != unlistedByte && memWf ((k', v') :: m)

/-- `MemRead(a, n)`: the `n` bytes at a, a + 1, ... modulo 2^64 (R10, R110). -/
def readBytes (m : Memory) (a : Addr) : Nat → List Byte
  | 0 => []
  | n + 1 => memGet m a.toNat :: readBytes m (a + 1) n

/-- `MemWrite(a, _, bytes)` (R10, R110). -/
def writeBytes (m : Memory) (a : Addr) : List Byte → Memory
  | [] => m
  | b :: bs => writeBytes (memSet m a.toNat b) (a + 1) bs

/-- Whether an address exists in `MEM` (R61). -/
def exists? (map : List (Nat × Nat)) (a : Nat) : Bool :=
  map.any (fun p => decide (p.1 ≤ a) && decide (a < p.1 + p.2))

/-- The first byte of an access of `n` bytes that is not in `MEM`, if any (R111, R206); the address F9 records (log 10). A
range that runs past the top of the address space goes on at 0 (R9, R110; log 25). -/
def firstMissing (map : List (Nat × Nat)) (a : Addr) : Nat → Option Addr
  | 0 => none
  | n + 1 => if exists? map a.toNat then firstMissing map (a + 1) n else some a

/-- Whether an access of `n` bytes at `a` and a region of `m` bytes at `b` share a byte (R116), modulo 2^64. -/
def meets (a : Addr) (n : Nat) (b : Addr) (m : Nat) : Bool :=
  decide (0 < n) && decide (0 < m) && (decide ((b - a).toNat < n) || decide ((a - b).toNat < m))

/-! ### Marks (R603) -/

/-- Whether a mark is set: no agent has a step then (R603). -/
def State.marked (s : State) : Bool := s.fault.isSome || s.refused.isSome

/-- `raise Fault(f)`: set the fault mark, if it is the first, and change nothing else (R603, R604). -/
def raise (f : Fault) (by_ : Agent) (s : State) : State :=
  { s with fault := s.fault.or (some ⟨f, by_, s.steps⟩) }

/-- `refuse(f)`: set the refusal mark, if it is the first, and change nothing else (R603, R604). -/
def refuse (f : Refusal) (by_ : Agent) (s : State) : State :=
  { s with refused := s.refused.or (some ⟨f, by_, s.steps⟩) }

/-- The fault or refusal of a rejected register access (R142, R601). -/
def rejectAccess (e : AccessReject) (s : State) : State :=
  match e with
  | .unsupportedWidth o w => refuse (.unsupportedAccessWidth o w) .host s
  | .misaligned o => raise (.misalignedRegisterAccess o) .host s
  | .outOfRange o => raise (.registerOffsetOutOfRange o) .host s
  | .unmodelled o => refuse (.unmodelledRegister o) .host s

/-! ### Free values, history, results -/

/-- The value of `draw(w bits)` at this point (R10). -/
def State.drawn (s : State) (w : Nat) : BitVec w := Config.draw w s.draws

/-- The state after a draw: the next one is another free value. -/
def State.afterDraw (s : State) : State := { s with draws := s.draws + 1 }

/-- `emit(e)` (R10, R640). -/
def State.emit (s : State) (e : Event) : State := { s with history := s.history ++ [e] }

/-- A read returns a value to the host (R140, R181). -/
def State.gets (s : State) (v : BitVec 64) : State := { s with r := v }

/-- A register read returns its 32-bit value. -/
def State.getsWord (s : State) (v : Word) : State := s.gets (v.setWidth 64)

/-- A host duty returns a value (R610). -/
def State.returns (s : State) (v : Result) : State := { s with results := v :: s.results }

/-- Put host commands before the rest of the current context's program. -/
def State.pushCode (s : State) (cs : List HostCmd) : State := { s with code := cs ++ s.code }

/-! ### Interrupt entry and return -/

/-- Interrupt entry (R632): save the thread context's program position, enter the interrupt context, start the bridge
at its first step; no device state and no memory changes. -/
def interruptEntry (s : State) : State :=
  { s with saved := s.code, ctx := .irq, code := [.bridge] }

/-- Interrupt return (R633): back to the thread context at the saved position, `ie` as it was. -/
def interruptReturn (s : State) : State :=
  { s with ctx := .thread, code := s.saved, saved := [] }

/-- Where the platform can deliver an interrupt: in the thread context, with interrupts enabled and the line unmasked
at the controller (R622, R623, R634). -/
def State.canInterrupt (s : State) : Bool := s.ctx == .thread && s.ie && s.irqUnmasked

end Sys2Proof.Machine
end

