-- ==== Sys2Proof/Machine/Operands.lean ====
section
/-! DEFINITION. The values assembled from register fields, descriptors and frames (R144, R145), and which descriptors
and buffer regions the device owns (R60, R115, R116). -/

namespace Sys2Proof.Machine

/-! ### Rings -/

/-- A legal ring length (R54): bits 6:0 and 31:20 are 0 and the value is not 0. -/
def lenLegal (len : Word) : Bool :=
  len.extractLsb' 0 7 == 0 && len.extractLsb' 20 12 == 0 && len != 0

/-- The ring size in descriptors of a legal length (R54, R144). -/
def ringSize (len : Word) : Nat := len.toNat / 16

/-- A ring as the registers describe it. -/
structure RingView where
  base : Addr
  len : Word
  head : Half
  tail : Half

/-- The transmit ring: TDBA = {TDBAH, TDBAL}, TDLEN, TDH, TDT (R144). -/
def State.txRing (s : State) : RingView := ⟨s.tdbah ++ s.tdbal, s.tdlen, s.tdh, s.tdt⟩

/-- The receive ring: RDBA = {RDBAH, RDBAL}, RDLEN, RDH, RDT (R144). -/
def State.rxRing (s : State) : RingView := ⟨s.rdbah ++ s.rdbal, s.rdlen, s.rdh, s.rdt⟩

/-- The ring size. -/
def RingView.size (v : RingView) : Nat := ringSize v.len

/-- The address of descriptor `i`: base + 16*i modulo 2^64 (R57, R110). -/
def RingView.descAddr (v : RingView) (i : Nat) : Addr := v.base + BitVec.ofNat 64 (16 * i)

/-- How many descriptors the device owns: (tail - head) mod N (R11, R60). With an illegal length there is no ring and
none is owned (R701). DEDUCED (unsafe) log 11. -/
def RingView.ownedCount (v : RingView) : Nat :=
  if lenLegal v.len then (v.tail.toNat + (v.size - v.head.toNat % v.size)) % v.size else 0

/-- The `k`-th index of the cyclic interval [head, tail) (R11). -/
def RingView.ownedIndex (v : RingView) (k : Nat) : Nat := (v.head.toNat + k) % v.size

/-- Whether the device owns index `i` (R60): `i` is in the cyclic interval [head, tail). -/
def RingView.owns (v : RingView) (i : Nat) : Bool :=
  decide (i < v.size) && decide ((i + (v.size - v.head.toNat % v.size)) % v.size < v.ownedCount)

/-- The next index of the ring: (i + 1) mod N (R44). -/
def RingView.next (v : RingView) (i : Nat) : Half := BitVec.ofNat 16 ((i + 1) % v.size)

/-- Whether a cursor write is out of range (R243, R244, R303, R304): high bits set, or not below the size of a legal
ring, or nonzero while the length is illegal. -/
def cursorBad (len v : Word) : Bool :=
  v.extractLsb' 16 16 != 0 || (if lenLegal len then decide (ringSize len ≤ (v.extractLsb' 0 16).toNat) else v != 0)

/-! ### Ownership of memory -/

/-- Whether `p` holds of some number below `n`. -/
def anyBelow (p : Nat → Bool) : Nat → Bool
  | 0 => false
  | n + 1 => p n || anyBelow p n

/-- Whether an access of `n` bytes at `a` meets a device-owned descriptor of a ring (R116). -/
def RingView.ownedDescMeets (v : RingView) (a : Addr) (n : Nat) : Bool :=
  anyBelow (fun k => meets a n (v.descAddr (v.ownedIndex k)) Config.descSize) v.ownedCount

/-- Whether the 16 bytes of a descriptor all exist in `MEM`. -/
def descMapped (map : List (Nat × Nat)) (da : Addr) : Bool := (firstMissing map da Config.descSize).isNone

/-- The buffer region (R115) of the descriptor at `da`, as address and length: on the transmit ring [buffer_addr,
buffer_addr + length), on the receive ring `RX_BUF_SIZE` bytes, from the descriptor's current content. A descriptor not
in `MEM` has no content and no region. DEDUCED (unsafe) log 12. -/
def bufferRegion (ring : Ring) (s : State) (da : Addr) : Addr × Nat :=
  if descMapped s.memMap da then
    let buf := BitVec.ofNat 64 (leNat (readBytes s.mem da 8))
    match ring with
    | .tx => (buf, leNat (readBytes s.mem (da + 8) 2))
    | .rx => (buf, Config.rxBufSize)
  else (0, 0)

/-- The ring's registers. -/
def State.ring (s : State) : Ring → RingView
  | .tx => s.txRing
  | .rx => s.rxRing

/-- Whether an access of `n` bytes at `a` meets the buffer region of a device-owned descriptor of a ring (R116). -/
def ringBufferMeets (ring : Ring) (s : State) (a : Addr) (n : Nat) : Bool :=
  let v := s.ring ring
  anyBelow (fun k =>
    let g := bufferRegion ring s (v.descAddr (v.ownedIndex k))
    meets a n g.1 g.2) v.ownedCount

/-- Whether an access meets a device-owned buffer region (R116, R206). -/
def State.ownedBufferMeets (s : State) (a : Addr) (n : Nat) : Bool :=
  ringBufferMeets .tx s a n || ringBufferMeets .rx s a n

/-- Whether an access meets a device-owned descriptor (R116, R207). -/
def State.ownedDescMeets (s : State) (a : Addr) (n : Nat) : Bool :=
  s.txRing.ownedDescMeets a n || s.rxRing.ownedDescMeets a n

/-! ### The receive filter and frames -/

/-- The filter address RA = {RAH0[15:0], RAL0[31:0]} (R144). -/
def State.filterAddr (s : State) : BitVec 48 := s.rah0.extractLsb' 0 16 ++ s.ral0

/-- The destination address of a frame, byte 0 least significant (R144, R316). -/
def frameDst (f : List Byte) : BitVec 48 := BitVec.ofNat 48 (leNat (f.take 6))

/-- The broadcast address (R316). -/
def broadcastAddr : BitVec 48 := 0xFFFFFFFFFFFF

/-- The receive buffer size RCTL selects: 2048 >> BSIZE (R305). -/
def rxBufferSize (rctl : Word) : Nat := 2048 / 2 ^ (rctlBsize rctl).toNat

/-- The bytes of a frame that are stored: without its 4 FCS bytes when SECRC = 1 (R321, R324). -/
def storedBytes (rctl : Word) (f : List Byte) : List Byte :=
  if rctlSecrc rctl then f.take (f.length - 4) else f

/-! ### EERD and the station address -/

/-- The value of EERD with a START bit (R361). -/
def eerdValue (data : Half) (addr : BitVec 8) (done : Bool) (start : BitVec 1) : Word :=
  data ++ addr ++ 0#3 ++ BitVec.ofBool done ++ 0#3 ++ start

/-- The station address {w2, w1, w0} (R145, R371). -/
def stationAddress (w0 w1 w2 : Half) : BitVec 48 := w2 ++ w1 ++ w0

/-- The value RAL0 is programmed with (R145, R722). -/
def ralOf (sa : BitVec 48) : Word := sa.extractLsb' 0 32

/-- The value RAH0 is programmed with: AV = 1, AS = 00 (R145, R722). -/
def rahOf (sa : BitVec 48) : Word := 0x80000000#32 ||| (sa.extractLsb' 32 16).setWidth 32

/-- The low half of a base address, as written to a BAL register (R721, R723). -/
def lowWord (a : Addr) : Word := a.extractLsb' 0 32

/-- The high half of a base address. -/
def highWord (a : Addr) : Word := a.extractLsb' 32 32

/-! ### Guards of the fair agents (R740) -/

/-- The transmit engine has a step (R255, R264). -/
def State.txCanStep (s : State) : Bool := tctlEn s.tctl && s.tdh != s.tdt && !s.marked

/-- The receive engine has a DMA step (R320, R327). -/
def State.rxCanStep (s : State) : Bool :=
  rctlEn s.rctl && s.rdh != s.rdt && !s.rxFifo.isEmpty && !s.marked

/-- The receive timer has a step (R330). -/
def State.timerCanStep (s : State) : Bool := s.rxTimerArmed && !s.marked

/-- The EEPROM unit has a step (R364). -/
def State.eepromCanStep (s : State) : Bool := s.eeBusy && !s.marked

/-- The platform has an interrupt to deliver, the line being asserted (R622), or, spurious, deasserted (R623). -/
def State.canDeliver (spurious : Bool) (s : State) : Bool := s.canInterrupt && !s.marked && (s.line != spurious)

end Sys2Proof.Machine
end

