-- ==== Sys2Proof/Machine/HostMemory.lean ====
section
/-! DEFINITION. The host's memory operations (R206 to R208). -/

namespace Sys2Proof.Machine

/-- The checks of a host read of `n` bytes (R206): F18, then F10 for a device-owned buffer region; then what is done
with the bytes. -/
def hostReads (aligned : Bool) (a : Addr) (n : Nat) (s : State) (k : List Byte → State) : Out :=
  if !aligned || (firstMissing s.memMap a n).isSome then .next (refuse (.hostAccessUnmapped a) .host s)
  else if s.ownedBufferMeets a n then .next (raise (.ownershipRace a) .host s)
  else .next (k (readBytes s.mem a n))

/-- The checks of a host write (R207, R208): F18, then F10 for a device-owned descriptor or buffer region; then the
write. -/
def hostWrites (aligned : Bool) (a : Addr) (bytes : List Byte) (s : State) : Out :=
  if !aligned || (firstMissing s.memMap a bytes.length).isSome then .next (refuse (.hostAccessUnmapped a) .host s)
  else if s.ownedDescMeets a bytes.length || s.ownedBufferMeets a bytes.length then
    .next (raise (.ownershipRace a) .host s)
  else .next { s with mem := writeBytes s.mem a bytes }

/-- Natural alignment of a host access (R114). -/
def naturallyAligned (n : Size) (a : Addr) : Bool := a.toNat % n.bytes == 0

/-- `ld.N a` (R206): the bytes as a little-endian number. -/
def execLd (n : Size) (a : Addr) (s : State) : Out :=
  hostReads (naturallyAligned n a) a n.bytes s (fun bytes => s.gets (BitVec.ofNat 64 (leNat bytes)))

/-- `st.N a, v` (R207): the low N bytes of v, least significant first. -/
def execSt (n : Size) (a : Addr) (v : BitVec 64) (s : State) : Out :=
  hostWrites (naturallyAligned n a) a (leBytes n.bytes v.toNat) s

/-- `copy a, bytes` (R208): one host step, no alignment rule. -/
def execCopy (a : Addr) (bytes : List Byte) (s : State) : Out := hostWrites true a bytes s

end Sys2Proof.Machine
end

