-- ==== Sys2Proof/Machine/Eeprom.lean ====
section
/-! DEFINITION. EERD and the EEPROM unit (R360 to R365). -/

namespace Sys2Proof.Machine

/-- `rd EERD` (R361): DATA, ADDR and DONE, with a drawn START bit; no side effect. -/
def execRdEerd (s : State) : Out :=
  .next (s.afterDraw.getsWord (eerdValue s.eerdData s.eerdAddr s.eerdDone (s.drawn 1)))

/-- `wr EERD, v` (R360, R362): F14 while a read is in progress; else ADDR is written, and with START = 1 a read starts:
DONE is cleared, DATA is drawn, and the EEPROM unit is busy. -/
def execWrEerd (v : Word) (s : State) : Out :=
  if s.eeBusy then .next (raise (.eepromBusy v) .host s)
  else
    let t := { s with eerdAddr := v.extractLsb' 8 8 }
    if eerdStart v then
      .next { t.afterDraw with eerdDone := false, eerdData := t.drawn 16, eeBusy := true }
    else .next t

/-- The EEPROM unit's step (R364), enabled exactly when a read is in progress and no mark is set: DATA is the word at
ADDR, or a draw beyond the EEPROM's words. -/
def eepromStep (s : State) : State :=
  if s.eepromCanStep then
    if s.eerdAddr.toNat < Config.eepromWords then
      { s with eerdData := Config.eeprom s.eerdAddr, eerdDone := true, eeBusy := false }
    else { s.afterDraw with eerdData := s.drawn 16, eerdDone := true, eeBusy := false }
  else s

end Sys2Proof.Machine
end

