-- ==== Sys2Proof/Machine/Status.lean ====
section
/-! DEFINITION. The STATUS register (R204, R205). -/

namespace Sys2Proof.Machine

/-- A register read whose whole value is a draw (R204, R395, R400). -/
def readDraw (s : State) : Out := .next (s.afterDraw.getsWord (s.drawn 32))

/-- `rd STATUS` (R204): a draw; nothing else changes. -/
def execRdStatus (s : State) : Out := readDraw s

/-- `wr STATUS, v` (R205): refused with F15, which sets the refusal mark (R603). -/
def execWrStatus (v : Word) (s : State) : Out := .next (refuse (.writeToReadOnly v) .host s)

end Sys2Proof.Machine
end

