-- ==== Sys2Proof/Machine/Interrupt.lean ====
section
/-! DEFINITION. The interrupt-status latch, its mask (R390 to R400), the cause sources (R330, R405) and delivery to
the host (R622, R623). -/

namespace Sys2Proof.Machine

/-- `rd ICR`, the drain (R391): return the latched causes, clear them all, emit Drain. -/
def execRdIcr (s : State) : Out :=
  .next (({ s with icr := 0 }.emit (.drain (s.icr &&& causeMask))).getsWord (s.icr &&& causeMask))

/-- `wr ICR, v` (R392): write 1 to clear. -/
def execWrIcr (v : Word) (s : State) : Out := .next { s with icr := clearCauses s.icr v }

/-- `rd ICS` (R395): a draw. -/
def execRdIcs (s : State) : Out := readDraw s

/-- `wr ICS, v` (R394): write 1 to set, in ICR. -/
def execWrIcs (v : Word) (s : State) : Out := .next { s with icr := setCauses s.icr v }

/-- `rd IMS` (R398): the mask. -/
def execRdIms (s : State) : Out := .next (s.getsWord s.mask)

/-- `wr IMS, v` (R397): write 1 to enable, in the mask. -/
def execWrIms (v : Word) (s : State) : Out := .next { s with mask := setCauses s.mask v }

/-- `rd IMC` (R400): a draw. -/
def execRdImc (s : State) : Out := readDraw s

/-- `wr IMC, v` (R399): write 1 to disable, in the mask. -/
def execWrImc (v : Word) (s : State) : Out := .next { s with mask := clearCauses s.mask v }

/-- The receive timer's step (R330): when armed, set RXT0 and disarm. -/
def rxTimerStep (s : State) : State :=
  if s.timerCanStep then { s with icr := latch s.icr rxt0, rxTimerArmed := false } else s

/-- A drawn nonempty subset of `CAUSE_OTHER` (R405): the drawn bits of it, and bit 0 where none is drawn.
DESIGN CHOICE (safe) log 17. -/
def otherCauses (drawn : Word) : Word :=
  if drawn &&& causeOther = 0 then 1 else drawn &&& causeOther

/-- The other-cause source's step (R405). -/
def otherCauseStep (s : State) : State :=
  if s.marked then s else { s.afterDraw with icr := latch s.icr (otherCauses (s.drawn 32)) }

/-- The platform delivers the interrupt while the line is asserted (R622), or enters the interrupt context with the line
deasserted (R623). -/
def deliverStep (spurious : Bool) (s : State) : State :=
  if s.canDeliver spurious then interruptEntry s else s

end Sys2Proof.Machine
end

