-- ==== Sys2Proof/Machine/Transmit.lean ====
section
/-! DEFINITION. The transmit registers (R240 to R247) and the transmit engine's descriptors (R255 to R266). -/

namespace Sys2Proof.Machine

/-! ### Registers -/

/-- A base, length or head write while the ring's EN = 1 is fault F6 (R240 to R243, R300 to R303, R733). -/
def unlessEnabled (enabled : Bool) (reg : Reg) (s : State) (write : Out) : Out :=
  if enabled then .next (raise (.configWhileEnabled reg) .host s) else write

/-- A cursor write out of range is fault F5 (R243, R244, R303, R304); `t` is the state with the cursor stored. -/
def cursorWrite (len : Word) (reg : Reg) (v : Word) (s t : State) : Out :=
  if cursorBad len v then .next (raise (.cursorOutOfRange reg v) .host s) else .next t

/-- The checks of a control write with EN = 1 (R245, R305), in their order, on the state `s` after the store: F7, F8, F5,
F13. F5 checks the head first and records the cursor's value (log 10). -/
def enableChecks (v : RingView) (bal : Word) (head tail ctl : Reg) (value refused : Word) (s : State) : State :=
  if !lenLegal v.len then raise (.badRingLength v.len) .host s
  else if bal.extractLsb' 0 4 != 0 then raise (.badRingBase bal) .host s
  else if v.size ≤ v.head.toNat then raise (.cursorOutOfRange head (v.head.setWidth 32)) .host s
  else if v.size ≤ v.tail.toNat then raise (.cursorOutOfRange tail (v.tail.setWidth 32)) .host s
  else if value &&& refused != 0 then refuse (.unmodelledControlField ctl value) .host s
  else s

/-- `rd TDBAL` (R240). -/
def execRdTdbal (s : State) : Out := .next (s.getsWord s.tdbal)

/-- `wr TDBAL, v` (R240). -/
def execWrTdbal (v : Word) (s : State) : Out :=
  unlessEnabled (tctlEn s.tctl) .tdbal s (.next { s with tdbal := v })

/-- `rd TDBAH` (R241). -/
def execRdTdbah (s : State) : Out := .next (s.getsWord s.tdbah)

/-- `wr TDBAH, v` (R241). -/
def execWrTdbah (v : Word) (s : State) : Out :=
  unlessEnabled (tctlEn s.tctl) .tdbah s (.next { s with tdbah := v })

/-- `rd TDLEN` (R242). -/
def execRdTdlen (s : State) : Out := .next (s.getsWord s.tdlen)

/-- `wr TDLEN, v` (R242). -/
def execWrTdlen (v : Word) (s : State) : Out :=
  unlessEnabled (tctlEn s.tctl) .tdlen s (.next { s with tdlen := v })

/-- `rd TDH` (R243). -/
def execRdTdh (s : State) : Out := .next (s.getsWord (s.tdh.setWidth 32))

/-- `wr TDH, v` (R243). -/
def execWrTdh (v : Word) (s : State) : Out :=
  unlessEnabled (tctlEn s.tctl) .tdh s (cursorWrite s.tdlen .tdh v s { s with tdh := v.extractLsb' 0 16 })

/-- `rd TDT` (R244). -/
def execRdTdt (s : State) : Out := .next (s.getsWord (s.tdt.setWidth 32))

/-- `wr TDT, v`, the transmit doorbell (R244). -/
def execWrTdt (v : Word) (s : State) : Out :=
  cursorWrite s.tdlen .tdt v s { s with tdt := v.extractLsb' 0 16 }

/-- `rd TCTL` (R246). -/
def execRdTctl (s : State) : Out := .next (s.getsWord s.tctl)

/-- `wr TCTL, v` (R245): the store, then with EN = 1 the enable checks. -/
def execWrTctl (v : Word) (s : State) : Out :=
  let t := { s with tctl := v }
  if tctlEn v then .next (enableChecks t.txRing t.tdbal .tdh .tdt .tctl v tctlRefused t) else .next t

/-- `rd TIPG` (R247). -/
def execRdTipg (s : State) : Out := .next (s.getsWord s.tipg)

/-- `wr TIPG, v` (R247). -/
def execWrTipg (v : Word) (s : State) : Out := .next { s with tipg := v }

/-! ### The engine -/

/-- The frame's part of a transmit step (R256, R258): the descriptor's bytes join `tx_accum`; with EOP the frame is
emitted and `tx_accum` emptied. -/
def txTake (d : TxDesc) (s : State) : State :=
  let acc := s.txAccum ++ readBytes s.mem d.bufferAddr d.length.toNat
  if cmdEop d.cmd then
    { s.emit (.txFrame (Config.wireImage acc (cmdIfcs d.cmd) (tctlPsp s.tctl))) with txAccum := [] }
  else { s with txAccum := acc }

/-- The write-back (R257): with RS = 1 the status byte of the descriptor at `da`, DD = 1 and bits 7:1 drawn. -/
def txWriteBack (d : TxDesc) (da : Addr) (s : State) : State :=
  if cmdRs d.cmd then { s.afterDraw with mem := writeBytes s.mem (da + 12) [txStatus (s.drawn 7)] } else s

/-- The first byte not in `MEM` that a transmit step would touch: of the buffer, then of the status byte written back
(R111, R256). -/
def txMissing (d : TxDesc) (da : Addr) (s : State) : Option Addr :=
  (firstMissing s.memMap d.bufferAddr d.length.toNat).or
    (if cmdRs d.cmd then firstMissing s.memMap (da + 12) 1 else none)

/-- `TXD`, the transmit engine's step on a legacy descriptor read at its head (R256); without a step while the engine is
disabled, owns nothing or a mark is set (R255, R264; log 30). -/
def execTxd (d : TxDesc) (s : State) : Out :=
  let i := s.tdh.toNat
  let da := s.txRing.descAddr i
  if !s.txCanStep then .next s
  else if cmdUnmodelled d.cmd then .next (refuse (.unmodelledDescriptorField i) .txEngine s)
  else if d.length.toNat = 0 || d.length.toNat > Config.maxTxDescLen then .next (raise (.badTxLength i) .txEngine s)
  else match txMissing d da s with
    | some a => .next (raise (.dmaUnmapped a .tx i) .txEngine s)
    | none => .next { txWriteBack d da (txTake d s) with tdh := s.txRing.next i }

/-- `TXD_EXT`, a transmit descriptor with DEXT = 1: refused with F11, which sets the refusal mark (R154, R262). -/
def execTxdExt (_d : TxDesc) (s : State) : Out :=
  if !s.txCanStep then .next s
  else .next (refuse (.extendedDescriptor s.tdh.toNat) .txEngine s)

end Sys2Proof.Machine
end

