-- ==== Sys2Proof/Machine/Receive.lean ====
section
/-! DEFINITION. The receive registers (R300 to R308), the address filter and arrival (R315 to R317), and the receive
engine's descriptor (R320 to R327). -/

namespace Sys2Proof.Machine

/-! ### Registers -/

/-- `rd RDBAL` (R300). -/
def execRdRdbal (s : State) : Out := .next (s.getsWord s.rdbal)

/-- `wr RDBAL, v` (R300). -/
def execWrRdbal (v : Word) (s : State) : Out :=
  unlessEnabled (rctlEn s.rctl) .rdbal s (.next { s with rdbal := v })

/-- `rd RDBAH` (R301). -/
def execRdRdbah (s : State) : Out := .next (s.getsWord s.rdbah)

/-- `wr RDBAH, v` (R301). -/
def execWrRdbah (v : Word) (s : State) : Out :=
  unlessEnabled (rctlEn s.rctl) .rdbah s (.next { s with rdbah := v })

/-- `rd RDLEN` (R302). -/
def execRdRdlen (s : State) : Out := .next (s.getsWord s.rdlen)

/-- `wr RDLEN, v` (R302). -/
def execWrRdlen (v : Word) (s : State) : Out :=
  unlessEnabled (rctlEn s.rctl) .rdlen s (.next { s with rdlen := v })

/-- `rd RDH` (R303). -/
def execRdRdh (s : State) : Out := .next (s.getsWord (s.rdh.setWidth 32))

/-- `wr RDH, v` (R303). -/
def execWrRdh (v : Word) (s : State) : Out :=
  unlessEnabled (rctlEn s.rctl) .rdh s (cursorWrite s.rdlen .rdh v s { s with rdh := v.extractLsb' 0 16 })

/-- `rd RDT` (R304). -/
def execRdRdt (s : State) : Out := .next (s.getsWord (s.rdt.setWidth 32))

/-- `wr RDT, v`, the receive doorbell (R304). -/
def execWrRdt (v : Word) (s : State) : Out :=
  cursorWrite s.rdlen .rdt v s { s with rdt := v.extractLsb' 0 16 }

/-- `rd RCTL` (R306). -/
def execRdRctl (s : State) : Out := .next (s.getsWord s.rctl)

/-- `wr RCTL, v` (R305): the store, then with EN = 1 the enable checks. -/
def execWrRctl (v : Word) (s : State) : Out :=
  let t := { s with rctl := v }
  if rctlEn v then .next (enableChecks t.rxRing t.rdbal .rdh .rdt .rctl v rctlRefused t) else .next t

/-- `rd RAL0` (R307). -/
def execRdRal0 (s : State) : Out := .next (s.getsWord s.ral0)

/-- `wr RAL0, v` (R307). -/
def execWrRal0 (v : Word) (s : State) : Out := .next { s with ral0 := v }

/-- `rd RAH0` (R308). -/
def execRdRah0 (s : State) : Out := .next (s.getsWord s.rah0)

/-- `wr RAH0, v` (R308). -/
def execWrRah0 (v : Word) (s : State) : Out := .next { s with rah0 := v }

/-! ### Arrival and the filter -/

/-- What the filter says of a frame (R316): its AS field is refused, it is accepted or dropped, or, for a multicast
frame, either (log 29). -/
inductive FilterAnswer where
  | refused | accept | drop | either
  deriving DecidableEq, Repr

/-- `accept(f)` (R316), in its order. -/
def filter (f : List Byte) (s : State) : FilterAnswer :=
  if rahAv s.rah0 && rahAs s.rah0 != 0 then .refused
  else if rahAv s.rah0 && frameDst f == s.filterAddr then .accept
  else if frameDst f == broadcastAddr then (if rctlBam s.rctl then .accept else .drop)
  else if (frameDst f).getLsbD 0 then .either
  else .drop

/-- The end of an arrival (R315): queue the frame, or drop it when the FIFO is full. -/
def enqueue (f : List Byte) (s : State) : State :=
  if Config.rxFifoFrames ≤ s.rxFifo.length then s.emit (.rxDrop f .overrun)
  else { s with rxFifo := s.rxFifo ++ [f] }

/-- The filter's answer applied to a frame (R315, R316). -/
def filtered (f : List Byte) (s : State) : State :=
  match filter f s with
  | .refused => refuse (.unmodelledControlField .rah0 s.rah0) .wire s
  | .accept => enqueue f s
  | .drop => s.emit (.rxDrop f .filtered)
  | .either => if s.drawn 1 = 1#1 then enqueue f s.afterDraw else s.afterDraw.emit (.rxDrop f .filtered)

/-- `RxArrive(f, ok)` (R315): the wire offers a frame. No agent has a step while a mark is set (R603). -/
def rxArrive (f : List Byte) (ok : Bool) (s : State) : State :=
  if s.marked then s
  else if !rctlEn s.rctl then s.emit (.rxDrop f .disabled)
  else if !ok then s.emit (.rxDrop f .badFcs)
  else if f.length < Config.minFrame || f.length > Config.maxFrame then s.emit (.rxDrop f .length)
  else filtered f s

/-! ### The DMA step -/

/-- Bytes 8 to 15 of a receive write-back (R321, R325), in address order: length, checksum, status, errors, special;
all but the length and the DD and EOP bits are drawn, in the order special, errors, status, checksum. -/
def rxWriteBackBytes (length draws : Nat) : List Byte :=
  leBytes 2 length ++ leBytes 2 (Config.draw 16 (draws + 3)).toNat
    ++ [rxStatus (Config.draw 6 (draws + 2)), Config.draw 8 (draws + 1)]
    ++ leBytes 2 (Config.draw 16 draws).toNat

/-- The first byte not in `MEM` that a receive step would write: of the buffer, then of the descriptor's bytes 8 to 15
(R111, R321). -/
def rxMissing (buffer da : Addr) (n : Nat) (s : State) : Option Addr :=
  (firstMissing s.memMap buffer n).or (firstMissing s.memMap (da + 8) 8)

/-- `RXD`, the receive engine's DMA step with the descriptor read at its head (R321); without a step while the engine is
disabled, owns nothing, has no frame or a mark is set (R320, R327; log 30). Of the descriptor only `buffer_addr` is used
(R113). -/
def execRxd (d : RxDesc) (s : State) : Out :=
  let i := s.rdh.toNat
  let da := s.rxRing.descAddr i
  let bytes := storedBytes s.rctl (s.rxFifo.headD [])
  if !s.rxCanStep then .next s
  else if rxBufferSize s.rctl < bytes.length then .next (refuse (.rxFrameExceedsBuffer bytes.length) .rxEngine s)
  else match rxMissing d.bufferAddr da bytes.length s with
    | some a => .next (raise (.dmaUnmapped a .rx i) .rxEngine s)
    | none =>
      .next { s with
        mem := writeBytes (writeBytes s.mem d.bufferAddr bytes) (da + 8) (rxWriteBackBytes bytes.length s.draws)
        draws := s.draws + 4
        rxFifo := s.rxFifo.tail
        rdh := s.rxRing.next i
        rxTimerArmed := true }

end Sys2Proof.Machine
end

