-- ==== Sys2Proof/Machine/PseudoOps.lean ====
section
/-! DEFINITION. The host's pseudo-operations (R210 to R214): each expands to a read, done at once, and a write, which
is the host's next step. -/

namespace Sys2Proof.Machine

/-- The read rule of each register (R200). -/
def readRule : Reg → State → Out
  | .status, s => execRdStatus s
  | .eerd, s => execRdEerd s
  | .icr, s => execRdIcr s
  | .ics, s => execRdIcs s
  | .ims, s => execRdIms s
  | .imc, s => execRdImc s
  | .rctl, s => execRdRctl s
  | .tctl, s => execRdTctl s
  | .tipg, s => execRdTipg s
  | .rdbal, s => execRdRdbal s
  | .rdbah, s => execRdRdbah s
  | .rdlen, s => execRdRdlen s
  | .rdh, s => execRdRdh s
  | .rdt, s => execRdRdt s
  | .tdbal, s => execRdTdbal s
  | .tdbah, s => execRdTdbah s
  | .tdlen, s => execRdTdlen s
  | .tdh, s => execRdTdh s
  | .tdt, s => execRdTdt s
  | .ral0, s => execRdRal0 s
  | .rah0, s => execRdRah0 s

/-- The 32-bit value the last register read returned. -/
def State.word (s : State) : Word := s.r.setWidth 32

/-- `rd REG` (result r), then `wr REG, upd r` as the host's next step (R210 to R213): a pseudo-operation is two host
steps, not one atomic access (R212; log 15). The offset is checked as in R200 (R214). -/
def readThenWrite (offset : Nat) (upd : Word → Word) (s : State) : Out :=
  match decodeOffset offset with
  | .error e => .next (rejectAccess e s)
  | .ok reg =>
    match readRule reg s with
    | .next t => .next (t.pushCode [.access (Access.wr offset (upd t.word))])
    | .fault f => .fault f
    | .refused f => .refused f

/-- `setBits REG, m` (R210). -/
def execSetBits (offset : Nat) (m : Word) (s : State) : Out := readThenWrite offset (fun r => r ||| m) s

/-- `clearBits REG, m` (R211). -/
def execClearBits (offset : Nat) (m : Word) (s : State) : Out := readThenWrite offset (fun r => r &&& ~~~m) s

/-- The field placed by `writeField` (R213), on 32-bit values. -/
def placeField (m : Word) (shift : Nat) (v r : Word) : Word := (r &&& ~~~m) ||| ((v <<< shift) &&& m)

/-- `writeField REG, m, s, v` (R213): a shift of 32 or more is refused F19 before either access. -/
def execWriteField (offset : Nat) (m : Word) (shift : Nat) (v : Word) (s : State) : Out :=
  if 32 ≤ shift then .next (refuse (.pseudoOpShiftOutOfRange shift) .host s)
  else readThenWrite offset (placeField m shift v) s

end Sys2Proof.Machine
end

