-- ==== Sys2Proof/Machine/Dispatch.lean ====
section
/-! DEFINITION. The dispatch of instructions to their meanings, one arm per row of spec/opcode_table.json. -/

namespace Sys2Proof.Machine

/-- Execute one instruction. -/
def exec (i : Instr) (s : State) : Host.Outcome State Fault Refusal :=
  match i with
  | .rdStatus => Sys2Proof.Machine.execRdStatus s
  | .wrStatus v => Sys2Proof.Machine.execWrStatus v s
  | .rdEerd => Sys2Proof.Machine.execRdEerd s
  | .wrEerd v => Sys2Proof.Machine.execWrEerd v s
  | .rdIcr => Sys2Proof.Machine.execRdIcr s
  | .wrIcr v => Sys2Proof.Machine.execWrIcr v s
  | .rdIcs => Sys2Proof.Machine.execRdIcs s
  | .wrIcs v => Sys2Proof.Machine.execWrIcs v s
  | .rdIms => Sys2Proof.Machine.execRdIms s
  | .wrIms v => Sys2Proof.Machine.execWrIms v s
  | .rdImc => Sys2Proof.Machine.execRdImc s
  | .wrImc v => Sys2Proof.Machine.execWrImc v s
  | .rdRctl => Sys2Proof.Machine.execRdRctl s
  | .wrRctl v => Sys2Proof.Machine.execWrRctl v s
  | .rdTctl => Sys2Proof.Machine.execRdTctl s
  | .wrTctl v => Sys2Proof.Machine.execWrTctl v s
  | .rdTipg => Sys2Proof.Machine.execRdTipg s
  | .wrTipg v => Sys2Proof.Machine.execWrTipg v s
  | .rdRdbal => Sys2Proof.Machine.execRdRdbal s
  | .wrRdbal v => Sys2Proof.Machine.execWrRdbal v s
  | .rdRdbah => Sys2Proof.Machine.execRdRdbah s
  | .wrRdbah v => Sys2Proof.Machine.execWrRdbah v s
  | .rdRdlen => Sys2Proof.Machine.execRdRdlen s
  | .wrRdlen v => Sys2Proof.Machine.execWrRdlen v s
  | .rdRdh => Sys2Proof.Machine.execRdRdh s
  | .wrRdh v => Sys2Proof.Machine.execWrRdh v s
  | .rdRdt => Sys2Proof.Machine.execRdRdt s
  | .wrRdt v => Sys2Proof.Machine.execWrRdt v s
  | .rdTdbal => Sys2Proof.Machine.execRdTdbal s
  | .wrTdbal v => Sys2Proof.Machine.execWrTdbal v s
  | .rdTdbah => Sys2Proof.Machine.execRdTdbah s
  | .wrTdbah v => Sys2Proof.Machine.execWrTdbah v s
  | .rdTdlen => Sys2Proof.Machine.execRdTdlen s
  | .wrTdlen v => Sys2Proof.Machine.execWrTdlen v s
  | .rdTdh => Sys2Proof.Machine.execRdTdh s
  | .wrTdh v => Sys2Proof.Machine.execWrTdh v s
  | .rdTdt => Sys2Proof.Machine.execRdTdt s
  | .wrTdt v => Sys2Proof.Machine.execWrTdt v s
  | .rdRal0 => Sys2Proof.Machine.execRdRal0 s
  | .wrRal0 v => Sys2Proof.Machine.execWrRal0 v s
  | .rdRah0 => Sys2Proof.Machine.execRdRah0 s
  | .wrRah0 v => Sys2Proof.Machine.execWrRah0 v s
  | .txd d => Sys2Proof.Machine.execTxd d s
  | .txdExt d => Sys2Proof.Machine.execTxdExt d s
  | .rxd d => Sys2Proof.Machine.execRxd d s
  | .ld n a => Sys2Proof.Machine.execLd n a s
  | .st n a v => Sys2Proof.Machine.execSt n a v s
  | .copy a bytes => Sys2Proof.Machine.execCopy a bytes s
  | .setBits offset m => Sys2Proof.Machine.execSetBits offset m s
  | .clearBits offset m => Sys2Proof.Machine.execClearBits offset m s
  | .writeField offset m shift v => Sys2Proof.Machine.execWriteField offset m shift v s

end Sys2Proof.Machine
end

