-- ==== Sys2Proof/Machine/Host.lean ====
section
/-! DEFINITION. The host: its duties as programs of atomic steps (R270, R340, R343, R370, R371, R396, R636, R638, R714
to R724), each step making at most one access (R106, R120); a step may be only a check (log 22). -/

namespace Sys2Proof.Machine

/-- Decode and execute; a rejected access sets its mark (R142, R603). -/
def runCode (c : Code) (s : State) : Out :=
  match decode c with
  | .ok i => exec i s
  | .error e => .next (rejectAccess e s)

/-- One access, with the commands that come after it put before the rest of the program. -/
def runThen (c : Code) (after : List HostCmd) (s : State) : Out := runCode c (s.pushCode after)

/-- The access `rd REG`. -/
def rdReg (r : Reg) : Code := r.readCode

/-- The host command `wr REG, v`. -/
def wrReg (r : Reg) (v : Word) : HostCmd := .access (Access.wr r.offset v)

/-- The access `ld.1 a`. -/
def ldByte (a : Addr) : Code := .hostOp (.ld .one a)

/-- The index after `t` in a ring of `n` (R270, R340). -/
def slotAfter (t n : Nat) : Nat := (t + 1) % n

/-- The host's address of byte `off` of transmit descriptor `i` (R270). -/
def txField (d : Driver) (i off : Nat) : Addr := d.txRing + BitVec.ofNat 64 (16 * i + off)

/-- The host's address of byte `off` of receive descriptor `i` (R340). -/
def rxField (d : Driver) (i off : Nat) : Addr := d.rxRing + BitVec.ofNat 64 (16 * i + off)

/-- `txbuf[i]` (R270): the host's own copy; a free value where the list has no entry `i`, as when `rd TDT` returned an
index beyond it. DESIGN CHOICE (safe) log 37. -/
def State.txBuffer (s : State) (i : Nat) : Addr := s.drv.txBuf.getD i (Config.noBuffer s.steps i)

/-- `rxbuf[i]` (R340), likewise. DESIGN CHOICE (safe) log 37. -/
def State.rxBuffer (s : State) (i : Nat) : Addr := s.drv.rxBuf.getD i (Config.noBuffer s.steps i)

/-- Bit 0 of the value last read: DD, after the status byte was read. -/
def State.dd (s : State) : Bool := s.r.getLsbD 0

/-! ### Ring construction and initialisation -/

/-- A ring size that R8 admits: a multiple of 8, at least 8, at most `MAX_RING`. -/
def ringSizeOk (n : Nat) : Bool := n % 8 == 0 && decide (8 ≤ n) && decide (n ≤ Config.maxRing)

/-- The bounds R8 sets on the host's OPEN parameters: `N_TX`, `N_RX`, and `EE_POLL_LIMIT` at least 1. -/
def paramsOk (d : Driver) : Bool := ringSizeOk d.nTx && ringSizeOk d.nRx && decide (1 ≤ d.eePollLimit)

/-- The regions R714 places, as address and length: both rings and every buffer. -/
def placedRegions (d : Driver) : List (Addr × Nat) :=
  (d.txRing, Config.descSize * d.nTx) :: (d.rxRing, Config.descSize * d.nRx)
    :: (d.txBuf.map (fun a => (a, d.txBufSize)) ++ d.rxBuf.map (fun a => (a, Config.rxBufSize)))

/-- No two of the regions overlap. -/
def disjointRegions : List (Addr × Nat) → Bool
  | [] => true
  | g :: gs => gs.all (fun h => !meets g.1 g.2 h.1 h.2) && disjointRegions gs

/-- A multiple of 4096. -/
def pageAligned (a : Addr) : Bool := a.extractLsb' 0 12 == 0

/-- The placement of R714: page-aligned rings, one buffer for each descriptor, every region in `MEM`, no two
overlapping. -/
def wellPlaced (map : List (Nat × Nat)) (d : Driver) : Bool :=
  pageAligned d.txRing && pageAligned d.rxRing && d.txBuf.length == d.nTx && d.rxBuf.length == d.nRx
    && (placedRegions d).all (fun g => (firstMissing map g.1 g.2).isNone) && disjointRegions (placedRegions d)

/-- The initial 16 bytes of a transmit descriptor (R715): status 0x01, all else but the address 0. -/
def txInitial (buf : Addr) : List Byte := leBytes 8 buf.toNat ++ [0, 0, 0, 0, 1, 0, 0, 0]

/-- The initial 16 bytes of a receive descriptor (R715). -/
def rxInitial (buf : Addr) : List Byte := leBytes 8 buf.toNat ++ [0, 0, 0, 0, 0, 0, 0, 0]

/-- The host's writes of the initial descriptors (R715), which gives their contents only: one 16-byte `copy` for each
descriptor, the transmit ring first, by rising index, is the model's choice. DESIGN CHOICE (safe) log 35. -/
def ringCode (d : Driver) : List HostCmd :=
  d.txBuf.mapIdx (fun i buf => .op (.copy (txField d i 0) (txInitial buf)))
    ++ d.rxBuf.mapIdx (fun i buf => .op (.copy (rxField d i 0) (rxInitial buf)))

/-- Step 2 (R721). -/
def initTransmit (d : Driver) : List HostCmd :=
  [wrReg .tdbal (lowWord d.txRing), wrReg .tdbah (highWord d.txRing), wrReg .tdlen (BitVec.ofNat 32 (16 * d.nTx)),
   wrReg .tdh 0, wrReg .tdt 0, wrReg .tctl 0x0004000A, wrReg .tipg 0x0060200A]

/-- Step 4 (R723). -/
def initReceive (d : Driver) : List HostCmd :=
  [wrReg .rdbal (lowWord d.rxRing), wrReg .rdbah (highWord d.rxRing), wrReg .rdlen (BitVec.ofNat 32 (16 * d.nRx)),
   wrReg .rdh 0, wrReg .rdt (BitVec.ofNat 32 (d.nRx - 1)), wrReg .rctl 0x04000002]

/-- Steps 2 to 5 (R721 to R724). That initialisation then returns `Ok`, in a step of its own after `ie` is set, is the
model's choice: no rule gives its success a value. DESIGN CHOICE (safe) log 34. -/
def initCode (d : Driver) : List HostCmd :=
  initTransmit d ++ [.readWord 0, .stationWords [], .programFilter] ++ initReceive d
    ++ [wrReg .ims 0x00000080, .unmaskIrq, .setIe true, .ret .ok]

/-- Initialisation (R720, R725): with `ie` false; a mapping failure ends it, and the host has no further move
(R612; log 23). -/
def initialise (mapped : Bool) (s : State) : State :=
  if mapped then { s with ie := false }.pushCode (initCode s.drv)
  else { s.returns .deviceMappingFailure with code := [] }

/-- Step 3's end (R722): program the filter with the station address; without one initialisation ends and the host has
no further move (R612). -/
def programFilter (s : State) : State :=
  match s.results.head? with
  | some (.station sa) => s.pushCode [wrReg .ral0 (ralOf sa), wrReg .rah0 (rahOf sa)]
  | _ => { s with code := [] }

/-! ### Duties -/

/-- Run a duty with `ie` false from its first access to its last (R631), then restore `ie` (log 33). -/
def critical (cs : List HostCmd) (s : State) : State :=
  { s with ie := false }.pushCode (cs ++ [HostCmd.setIe s.ie])

/-- Construct the rings (R714, R715) of a plan within R8's bounds and R714's placement. Any other plan is none the host may
have: nothing happens. DESIGN CHOICE (safe) log 36. -/
def constructRings (plan : Driver) (s : State) : State :=
  if paramsOk plan && wellPlaced s.memMap plan then critical (ringCode plan) { s with drv := plan } else s

/-- Start a duty. -/
def callDuty (d : Duty) (s : State) : State :=
  match d with
  | .constructRings plan => constructRings plan s
  | .initialise mapped => initialise mapped s
  | .transmit p => critical [.transmit p] s
  | .receive capacity => critical [.receive capacity] s
  | .isEmpty => critical [.isEmpty] s
  | .blockingReceive c => critical [.blockingReceive c] s
  | .readWord k => critical [.readWord k] s
  | .readStationAddress => critical [.readWord 0, .stationWords []] s
  | .generateTestInterrupt => critical [wrReg .ics 0x00000080] s
  | .pseudo o => critical [.op o] s

/-! ### transmit (R270 to R274) -/

/-- The length check before any access (R271), then `rd TDT`. -/
def transmitStart (p : List Byte) (s : State) : Out :=
  if s.drv.txBufSize ≤ p.length || p.length = 0 then .next (s.returns .oversizedPacket)
  else runThen (rdReg .tdt) [.txSlot p] s

/-- Slot t's DD was read: RingFull, or read the DD of slot n. -/
def transmitNext (p : List Byte) (t : Nat) (s : State) : Out :=
  if s.dd then runThen (ldByte (txField s.drv (slotAfter t s.drv.nTx) 12)) [.txQueue p t] s
  else .next (s.returns .ringFull)

/-- Slot n's DD was read: RingFull, or copy the packet to `txbuf[t]` (where the host has none, log 37), set
length and cmd, clear DD, ring the doorbell. -/
def transmitQueue (p : List Byte) (t : Nat) (s : State) : Out :=
  if s.dd then
    runThen (.hostOp (.copy (s.txBuffer t) p))
      [.op (.st .two (txField s.drv t 8) (BitVec.ofNat 64 p.length)), .op (.st .one (txField s.drv t 11) 0x09),
       .op (.st .one (txField s.drv t 12) 0), wrReg .tdt (BitVec.ofNat 32 (slotAfter t s.drv.nTx)), .ret .ok] s
  else .next (s.returns .ringFull)

/-! ### receive (R340 to R344) -/

/-- The capacity check before any access (R341), then `rd RDT`. -/
def receiveStart (capacity : Nat) (s : State) : Out :=
  if capacity < Config.rxBufSize then .next (s.returns .bufferTooSmall)
  else runThen (rdReg .rdt) [.rxSlot] s

/-- `rd RDT` returned t: read the status byte of slot s = (t + 1) mod N. -/
def receiveSlot (s : State) : Out :=
  let i := slotAfter s.r.toNat s.drv.nRx
  runThen (ldByte (rxField s.drv i 12)) [.rxLength i] s

/-- RingEmpty (R342), or read the length. -/
def receiveLength (i : Nat) (s : State) : Out :=
  if s.dd then runThen (.hostOp (.ld .two (rxField s.drv i 8))) [.rxData i] s
  else .next (s.returns .ringEmpty)

/-- Read the frame from the host-owned buffer as one host read of a byte range (R114, R340; log 14), then clear DD,
advance the tail, return the length. -/
def receiveData (i : Nat) (s : State) : Out :=
  let length := s.r.setWidth 16
  hostReads true (s.rxBuffer i) length.toNat s (fun bytes =>
    s.pushCode [.op (.st .one (rxField s.drv i 12) 0), wrReg .rdt (BitVec.ofNat 32 i), .ret (.received length bytes)])

/-! ### readWord and readStationAddress (R370, R371) -/

/-- Poll EERD once more, or give up (R370). -/
def poll (n : Nat) (s : State) : Out :=
  match n with
  | 0 => .next (s.returns .deviceNotResponding)
  | k + 1 => runThen (rdReg .eerd) [.pollCheck k] s

/-- EERD was read: the word when DONE, else poll again. -/
def pollCheck (n : Nat) (s : State) : Out :=
  if eerdDoneBit s.word then .next (s.returns (.word (s.word.extractLsb' 16 16))) else poll n s

/-- A word was read, or not (R371): after four words return {w2, w1, w0}. -/
def stationWords (ws : List Half) (s : State) : State :=
  match s.results.head? with
  | some (.word w) =>
    let all := ws ++ [w]
    if all.length < 4 then s.pushCode [.readWord (BitVec.ofNat 8 all.length), .stationWords all]
    else s.returns (.station (stationAddress (all.getD 0 0) (all.getD 1 0) (all.getD 2 0)))
  | _ => s.returns .deviceNotResponding

/-! ### blockingReceive (R638) and the bridge (R636) -/

/-- The checks before the receive of `blockingReceive` (R638). -/
def blockingStart (c : Consumer) (s : State) : State :=
  if s.blocked.isSome then s.returns .rejected
  else if c.capacity < Config.rxBufSize then s.returns .bufferTooSmall
  else s.pushCode [.receive c.capacity, .register c]

/-- RingEmpty registers the consumer (R638); anything else was returned already. -/
def registerConsumer (c : Consumer) (s : State) : State :=
  match s.results.head? with
  | some .ringEmpty => { s with blocked := some c }.returns .blocked
  | _ => s

/-- The bridge after its drain (R636): return if no consumer is registered, else exactly one receive. -/
def bridgeCheck (s : State) : State :=
  match s.blocked with
  | none => interruptReturn s
  | some c => s.pushCode [.receive c.capacity, .bridgeComplete]

/-- The bridge after its receive (R636): deliver a frame to the consumer and clear the registration, or leave it. A registration the
scheduler cleared meanwhile does not undo the receive (log 24); a result that is neither clears the registration (log 31). -/
def bridgeComplete (s : State) : State :=
  match s.results.head? with
  | some (.received length bytes) => interruptReturn { s.emit (.deliver length bytes) with blocked := none }
  | some .ringEmpty => interruptReturn s
  | _ => interruptReturn { s with blocked := none }

/-! ### One host step -/

/-- Execute one host command, already taken off the program. -/
def runCmd (c : HostCmd) (s : State) : Out :=
  match c with
  | .access a => runCode (.access a) s
  | .op o => runCode (.hostOp o) s
  | .call d => .next (callDuty d s)
  | .setIe b => .next { s with ie := b }
  | .unmaskIrq => .next { s with irqUnmasked := true }
  | .ret v => .next (s.returns v)
  | .transmit p => transmitStart p s
  | .txSlot p => runThen (ldByte (txField s.drv s.r.toNat 12)) [.txNext p s.r.toNat] s
  | .txNext p t => transmitNext p t s
  | .txQueue p t => transmitQueue p t s
  | .receive capacity => receiveStart capacity s
  | .rxSlot => receiveSlot s
  | .rxLength i => receiveLength i s
  | .rxData i => receiveData i s
  | .isEmpty => runThen (rdReg .rdt) [.emptySlot] s
  | .emptySlot => runThen (ldByte (rxField s.drv (slotAfter s.r.toNat s.drv.nRx) 12)) [.emptyAnswer] s
  | .emptyAnswer => .next (s.returns (.empty (!s.dd)))
  | .readWord k => runThen (Reg.eerd.writeCode (k.setWidth 32 <<< 8 ||| 1)) [.pollEerd s.drv.eePollLimit] s
  | .pollEerd n => poll n s
  | .pollCheck n => pollCheck n s
  | .stationWords ws => .next (stationWords ws s)
  | .programFilter => .next (programFilter s)
  | .blockingReceive c => .next (blockingStart c s)
  | .register c => .next (registerConsumer c s)
  | .bridge => runThen (rdReg .icr) [.bridgeCheck] s
  | .bridgeCheck => .next (bridgeCheck s)
  | .bridgeComplete => .next (bridgeComplete s)

/-- The host's step in its current context: its next command. With none left the thread context has finished (R641) and
nothing changes, and the interrupt context returns (R633). -/
def hostStep (s : State) : Out :=
  match s.code with
  | [] => .next (if s.ctx = .irq then interruptReturn s else s)
  | c :: rest => runCmd c { s with code := rest }

end Sys2Proof.Machine
end

