-- ==== Sys2Proof/Machine/Agents.lean ====
section
/-! DEFINITION. The engines' fetch, one turn of the interleaving (R120), and how a code is placed where the next step
fetches it. -/

namespace Sys2Proof.Machine

/-! ### The engines' fetch -/

/-- The 128-bit value of the descriptor at `da` (R100, R150). -/
def descBits (s : State) (da : Addr) : BitVec 128 := BitVec.ofNat 128 (leNat (readBytes s.mem da Config.descSize))

/-- The transmit engine's step (R256): read the 16 bytes at the head (F9), decode, execute. -/
def txEngineStep (s : State) : Out :=
  let i := s.tdh.toNat
  let da := s.txRing.descAddr i
  if s.txCanStep then
    match firstMissing s.memMap da Config.descSize with
    | some a => .next (raise (.dmaUnmapped a .tx i) .txEngine s)
    | none => runCode (.txDesc (descBits s da)) s
  else .next s

/-- The receive engine's step (R321): the frame's length is checked first (F16), then `buffer_addr` is read at the head
(F9), then the descriptor is executed. The engine reads bytes 0 to 7 only (R113); bytes 8 to 15 are taken along for the
decoder and no effect depends on them (log 21). -/
def rxEngineStep (s : State) : Out :=
  let i := s.rdh.toNat
  let da := s.rxRing.descAddr i
  let length := (storedBytes s.rctl (s.rxFifo.headD [])).length
  if s.rxCanStep then
    if rxBufferSize s.rctl < length then .next (refuse (.rxFrameExceedsBuffer length) .rxEngine s)
    else match firstMissing s.memMap da 8 with
      | some a => .next (raise (.dmaUnmapped a .rx i) .rxEngine s)
      | none => runCode (.rxDesc (descBits s da)) s
  else .next s

/-! ### Turns -/

/-- One turn: the named agent's step; an agent with no enabled step leaves the state as it is (log 19). -/
def runTurn (t : Turn) (s : State) : Out :=
  match t with
  | .host => hostStep s
  | .txEngine => txEngineStep s
  | .rxEngine => rxEngineStep s
  | .rxTimer => .next (rxTimerStep s)
  | .eeprom => .next (eepromStep s)
  | .otherCause => .next (otherCauseStep s)
  | .wire f ok => .next (rxArrive f ok s)
  | .deliver => .next (deliverStep false s)
  | .spurious => .next (deliverStep true s)
  | .terminate => .next { s with blocked := none }

/-- Whether a turn's agent has an enabled step. The host has one while its context has a command left, and in the interrupt
context always (R633, R641); the wire and the other-cause source at any time (R315, R405); the scheduler while a consumer
is blocked (R638); no agent while a mark is set (R603). -/
def enabled (t : Turn) (s : State) : Bool :=
  match t with
  | .host => (!s.code.isEmpty || s.ctx == .irq) && !s.marked
  | .txEngine => s.txCanStep
  | .rxEngine => s.rxCanStep
  | .rxTimer => s.timerCanStep
  | .eeprom => s.eepromCanStep
  | .otherCause => !s.marked
  | .wire _ _ => !s.marked
  | .deliver => s.canDeliver false
  | .spurious => s.canDeliver true
  | .terminate => s.blocked.isSome && !s.marked

/-- The turns whose steps are weakly fair (R740): both engines, the receive timer, the EEPROM unit and interrupt
delivery. -/
def fairTurns : List Turn := [.txEngine, .rxEngine, .rxTimer, .eeprom, .deliver]

/-- Whose turn it is: the agenda's first, or a free choice (R605; log 2). -/
def State.turn (s : State) : Turn := s.agenda.headD (Config.freeTurn s.steps)

/-- The state in which the turn's agent steps: the turn is taken off the agenda and the step is counted. -/
def State.begin (s : State) : State := { s with agenda := s.agenda.tail, steps := s.steps + 1 }

/-- A marked state is quiescent for ever (R603): the reason that stopped it. -/
def State.stopped (s : State) : Option Out :=
  match s.fault with
  | some m => some (.fault m.what)
  | none => s.refused.map (fun m => .refused m.what)

/-! ### Placing a code where the next step fetches it (log 32) -/

/-- The marks cleared and the next turn given to an agent. -/
def State.readyFor (s : State) (t : Turn) : State :=
  { s with fault := none, refused := none, agenda := t :: s.agenda }

/-- The existing addresses with the 16 bytes of a descriptor among them. -/
def withDescMapped (map : List (Nat × Nat)) (da : Addr) : List (Nat × Nat) :=
  if descMapped map da then map
  else (List.range Config.descSize).map (fun k => ((da + BitVec.ofNat 64 k).toNat, 1)) ++ map

/-- A ring length that is legal. -/
def legalised (len : Word) : Word := if lenLegal len then len else 0x80

/-- A tail that differs from the head, in a ring of the given view. -/
def RingView.nonempty (v : RingView) : Half := if v.head = v.tail then v.next v.head.toNat else v.tail

/-- Place a descriptor at the transmit head of an enabled, nonempty ring. -/
def placeTx (v : BitVec 128) (s : State) : State :=
  let t := { s with tctl := s.tctl ||| 2, tdlen := legalised s.tdlen }
  let da := t.txRing.descAddr t.tdh.toNat
  { t.readyFor .txEngine with
    tdt := t.txRing.nonempty
    memMap := withDescMapped t.memMap da
    mem := writeBytes t.mem da (leBytes Config.descSize v.toNat) }

/-- Place a descriptor at the receive head of an enabled, nonempty ring, with a frame in the FIFO. -/
def placeRx (v : BitVec 128) (s : State) : State :=
  let t := { s with rctl := s.rctl ||| 2, rdlen := legalised s.rdlen }
  let da := t.rxRing.descAddr t.rdh.toNat
  { t.readyFor .rxEngine with
    rdt := t.rxRing.nonempty
    rxFifo := if t.rxFifo.isEmpty then [List.replicate Config.minFrame 0] else t.rxFifo
    memMap := withDescMapped t.memMap da
    mem := writeBytes t.mem da (leBytes Config.descSize v.toNat) }

/-- Place a code where the next step fetches it: a host code as the host's next command, a descriptor at the head of its
ring; and give the next turn to the agent that executes it. -/
def place (c : Code) (s : State) : State :=
  match c with
  | .access a => (s.pushCode [.access a]).readyFor .host
  | .hostOp o => (s.pushCode [.op o]).readyFor .host
  | .txDesc v => placeTx v s
  | .rxDesc v => placeRx v s

/-- Place a word of the opcode table; what is no access at all changes nothing. -/
def placeTableWord (nbits w : Nat) (s : State) : State :=
  match tableCode nbits w with
  | .ok c => place c s
  | .error _ => s

end Sys2Proof.Machine
end

