-- ==== Sys2Proof/Machine/Step.lean ====
section
/-! DEFINITION. One step of the machine, and the placing of an opcode-table word where it fetches. -/

namespace Sys2Proof.Machine

/-- One step (R120, R603): a marked state stops with its reason; otherwise the agent whose turn it is makes one atomic
step. -/
def step (s : State) : Host.Outcome State Fault Refusal :=
  match s.stopped with
  | some out => out
  | none => runTurn s.turn s.begin

/-- `s` with an opcode-table word placed where the next step fetches and runs it. -/
def State.withFetchWord (s : State) (nbits w : Nat) : State := placeTableWord nbits w s

end Sys2Proof.Machine
end

