-- ==== Sys2Proof/Machine/Runs.lean ====
section
/-! DEFINITION. Runs of the machine under any interleaving (R120, R605), and the fairness of R740: a predicate on runs,
which `step` itself does not enforce (log 27). -/

namespace Sys2Proof.Machine

/-- One state of a run and the next, the agent of turn `t` making its step; a marked state, quiescent for ever, stays
(R603). `step` is the case in which `t` is the state's own turn. -/
def follows (t : Turn) (s u : State) : Prop :=
  if s.marked = true then u = s else runTurn t s.begin = .next u

/-- A run: whose turn each step is, and the sequence of the states. -/
def isRun (who : Nat → Turn) (run : Nat → State) : Prop := ∀ n, follows (who n) (run n) (run (n + 1))

/-- Weak fairness of an agent: a step that stays enabled is eventually taken (R740). -/
def weaklyFair (t : Turn) (who : Nat → Turn) (run : Nat → State) : Prop :=
  ∀ n, (∀ m, n ≤ m → enabled t (run m) = true) → ∃ m, n ≤ m ∧ who m = t

/-- A fair run (R740): weakly fair to both engines, the receive timer, the EEPROM unit and interrupt delivery. The wire's
arrivals and the other-cause source are not fair; R740 names no other agent, and none other is. -/
def fairRun (who : Nat → Turn) (run : Nat → State) : Prop :=
  isRun who run ∧ ∀ t ∈ fairTurns, weaklyFair t who run

end Sys2Proof.Machine
end

