-- ==== Sys2Proof/Safety.lean ====
section
/-! DEFINITION. What a good state, a safe run and a final state are. -/

namespace Sys2Proof.Machine

/-- A state no fault or refusal has marked (R603). -/
abbrev State.Unmarked (s : State) : Prop := s.marked = false

/-- An enabled ring is well programmed (R245, R305, R733): its length is legal, its base is 16-byte aligned, and both
cursors are in [0, N) (R44, R53, R54, R55). -/
def ringGood (enabled : Bool) (v : RingView) : Bool :=
  !enabled || (lenLegal v.len && v.base.extractLsb' 0 4 == 0 && decide (v.head.toNat < v.size)
    && decide (v.tail.toNat < v.size))

/-- The invariant every step keeps: memory is canonical; the latch and the mask hold cause bits only (R48); at most one
mark is set (R603); while none is set an enabled ring is well programmed and no refused-if-set bit is enabled (R245,
R305); the FIFO holds at most `RX_FIFO_FRAMES` frames, each of legal length (R315, R317); DONE is clear while a read is in
progress (R360, R364); only the interrupt context has a saved program position (R632, R633); the host's parameters are
within R8's bounds, and its rings, once constructed, are placed as R714 says. -/
structure State.Inv (s : State) : Prop where
  mem : memWf s.mem = true
  icr : s.icr &&& ~~~causeMask = 0
  mask : s.mask &&& ~~~causeMask = 0
  oneMark : s.fault = none ∨ s.refused = none
  txRing : s.Unmarked → ringGood (tctlEn s.tctl) s.txRing = true
  rxRing : s.Unmarked → ringGood (rctlEn s.rctl) s.rxRing = true
  txRefused : s.Unmarked → tctlEn s.tctl = true → s.tctl &&& tctlRefused = 0
  rxRefused : s.Unmarked → rctlEn s.rctl = true → s.rctl &&& rctlRefused = 0
  fifo : s.rxFifo.length ≤ Config.rxFifoFrames
  frames : ∀ f ∈ s.rxFifo, Config.minFrame ≤ f.length ∧ f.length ≤ Config.maxFrame
  eeprom : s.eeBusy = true → s.eerdDone = false
  saved : s.ctx = .thread → s.saved = []
  params : paramsOk s.drv = true
  placed : s.drv = State.reset.drv ∨ wellPlaced s.memMap s.drv = true

/-- `t` is `s` but for the fault and refusal marks (R604). -/
def OnlyMarks (s t : State) : Prop := t = { s with fault := t.fault, refused := t.refused }

/-- A safe step: the machine answers a next state that no fault or refusal has marked. -/
def Safe (s : State) : Prop := ∃ t, step s = .next t ∧ t.Unmarked

/-- A final state (R641): no mark, the host has finished in the thread context with no consumer registered, and no
device agent but the wire and the other-cause source has an enabled step. -/
def State.final (s : State) : Bool :=
  !s.marked && s.code.isEmpty && s.ctx == .thread && s.blocked.isNone && !s.txCanStep && !s.rxCanStep
    && !s.rxTimerArmed && !s.eeBusy

end Sys2Proof.Machine
end

