-- ==== Sys2Proof/WellFormed.lean ====
section
/-! DEFINITION. When an instruction, as syntax, is one the opcode table has: its operands are in the ranges the table
and the rules of each row give. -/

namespace Sys2Proof

/-- An offset of R141's table. -/
def offsetOk (o : Nat) : Bool := (Reg.ofOffset o).isSome

/-- A naturally aligned address of a host access of `n` bytes (R114). -/
def alignedFor (n : Size) (a : Addr) : Bool := a.toNat % n.bytes == 0

/-- The well-formedness check of an instruction. -/
def wellFormed : Instr → Bool
  | .rdStatus | .wrStatus _ | .rdEerd | .wrEerd _ | .rdIcr | .wrIcr _
  | .rdIcs | .wrIcs _ | .rdIms | .wrIms _ | .rdImc | .wrImc _
  | .rdRctl | .wrRctl _ | .rdTctl | .wrTctl _ | .rdTipg | .wrTipg _
  | .rdRdbal | .wrRdbal _ | .rdRdbah | .wrRdbah _ | .rdRdlen | .wrRdlen _
  | .rdRdh | .wrRdh _ | .rdRdt | .wrRdt _ | .rdTdbal | .wrTdbal _
  | .rdTdbah | .wrTdbah _ | .rdTdlen | .wrTdlen _ | .rdTdh | .wrTdh _
  | .rdTdt | .wrTdt _ | .rdRal0 | .wrRal0 _ | .rdRah0 | .wrRah0 _ => true
  | .txd d => !d.dext
  | .txdExt d => d.dext
  | .rxd _ => true
  | .ld n a => alignedFor n a
  | .st n a v => alignedFor n a && decide (v.toNat < 256 ^ n.bytes)
  | .copy _ bs => decide (bs.length ≤ 2 ^ 64)
  | .setBits o _ => offsetOk o
  | .clearBits o _ => offsetOk o
  | .writeField o _ s _ => offsetOk o && decide (s < 32)

/-- The instructions of the opcode table. -/
abbrev WellFormed (i : Instr) : Prop := wellFormed i = true

end Sys2Proof
end

