-- ==== Sys2Proof/Certificates/Slice0/Obligations.lean ====
section
/-! DEFINITION. The statements for the provers, from the numbered rules of spec/. -/

open Sys2Proof Sys2Proof.Machine

namespace Sys2Proof.Stated

/-- A register's read access (R140, R141): a 32-bit read at offset `o` decodes to `rd`, and its key is `{0, o}`. -/
def ReadKey (o : Nat) (rd : Instr) : Prop :=
  decode (.access ⟨32, false, o, 0⟩) = .ok rd ∧ (Access.rd o).key = BitVec.ofNat 18 o

/-- A register's write access (R140, R141): a 32-bit write of `v` at offset `o` decodes to `wr v`, and its key is
`{1, o}`. -/
def WriteKey (o : Nat) (wr : Word → Instr) : Prop :=
  ∀ v, decode (.access ⟨32, true, o, v⟩) = .ok (wr v) ∧ (Access.wr o v).key = BitVec.ofNat 18 (0x20000 + o)

/-- Both accesses of a register. -/
def Keys (o : Nat) (rd : Instr) (wr : Word → Instr) : Prop := ReadKey o rd ∧ WriteKey o wr

/-- A legal ring length, in R54's words on the value: bits 6:0 are 0, bits 31:20 are 0, and it is not 0. -/
def Legal (len : Word) : Prop := len.toNat % 128 = 0 ∧ len.toNat < 0x100000 ∧ len.toNat ≠ 0

/-- The ring size of a legal length (R54). -/
def size (len : Word) : Nat := len.toNat / 16

/-- Every one of the `n` bytes from `a` (modulo 2^64) is in `MEM`. -/
def InMem (s : State) (a : Addr) (n : Nat) : Prop :=
  ∀ k, k < n → ∃ p ∈ s.memMap, p.1 ≤ (a + BitVec.ofNat 64 k).toNat ∧ (a + BitVec.ofNat 64 k).toNat < p.1 + p.2

/-- `x` is one of the `n` addresses from `a`, modulo 2^64. -/
abbrev Inside (x a : Addr) (n : Nat) : Prop := (x - a).toNat < n

/-- The address of descriptor `i` of the transmit ring (R57). -/
def txDescAddr (s : State) (i : Nat) : Addr := (s.tdbah ++ s.tdbal) + BitVec.ofNat 64 (16 * i)

/-- The address of descriptor `i` of the receive ring (R57). -/
def rxDescAddr (s : State) (i : Nat) : Addr := (s.rdbah ++ s.rdbal) + BitVec.ofNat 64 (16 * i)

/-- The device owns index `i` of a ring (R11, R60): the length is legal, so that there is a ring, and `i` is one of head,
head + 1, ... modulo N, as many as (tail - head) mod N. -/
def Owns (v : RingView) (i : Nat) : Prop :=
  Legal v.len ∧ ∃ k, k < (v.tail.toNat + size v.len - v.head.toNat) % size v.len ∧ i = (v.head.toNat + k) % size v.len

/-- A ring whose length is legal and whose cursors are in [0, N) (R44, R54). -/
def GoodRing (v : RingView) : Prop := Legal v.len ∧ v.head.toNat < size v.len ∧ v.tail.toNat < size v.len

/-- A ring that does not exist, its length being illegal, or one whose cursors are in [0, N). -/
def RingOrNone (v : RingView) : Prop := Legal v.len → v.head.toNat < size v.len ∧ v.tail.toNat < size v.len

/-- The stored value of a register that R731 names; 0 for any other. -/
def stored (reg : Reg) (s : State) : Word :=
  match reg with
  | .tctl => s.tctl | .rctl => s.rctl | .tipg => s.tipg
  | .tdbal => s.tdbal | .tdbah => s.tdbah | .tdlen => s.tdlen
  | .rdbal => s.rdbal | .rdbah => s.rdbah | .rdlen => s.rdlen
  | .ral0 => s.ral0 | .rah0 => s.rah0
  | _ => 0

/-- The state with a register that R731 names holding `x`. -/
def withStored (reg : Reg) (x : Word) (s : State) : State :=
  match reg with
  | .tctl => { s with tctl := x } | .rctl => { s with rctl := x } | .tipg => { s with tipg := x }
  | .tdbal => { s with tdbal := x } | .tdbah => { s with tdbah := x } | .tdlen => { s with tdlen := x }
  | .rdbal => { s with rdbal := x } | .rdbah => { s with rdbah := x } | .rdlen => { s with rdlen := x }
  | .ral0 => { s with ral0 := x } | .rah0 => { s with rah0 := x }
  | _ => s

/-- A control value is admitted: its EN is 0, or the ring is good, its base 16-byte aligned and no refused bit set. -/
def ControlAdmitted (v : RingView) (bal refused x : Word) : Prop :=
  x.getLsbD 1 = false ∨ (GoodRing v ∧ bal.toNat % 16 = 0 ∧ x &&& refused = 0)

/-- The write of `x` to a register that R731 names is admitted: R731's "while disabled" for bases and lengths. -/
def WriteAdmitted (reg : Reg) (x : Word) (s : State) : Prop :=
  match reg with
  | .tctl => ControlAdmitted s.txRing s.tdbal 0xFFC00005 x
  | .rctl => ControlAdmitted s.rxRing s.rdbal 0xFBEC4CFD x
  | .tdbal | .tdbah | .tdlen => s.tctl.getLsbD 1 = false
  | .rdbal | .rdbah | .rdlen => s.rctl.getLsbD 1 = false
  | .tipg | .ral0 | .rah0 => True
  | _ => False

/-- `o` is a pseudo-operation on `reg`, and `x` is the value it leaves there (R210, R211, R213). -/
def PseudoOn (o : HostOp) (reg : Reg) (x : Word) (s : State) : Prop :=
  match o with
  | .setBits off m => off = reg.offset ∧ x = stored reg s ||| m
  | .clearBits off m => off = reg.offset ∧ x = stored reg s &&& ~~~m
  | .writeField off m sh v => off = reg.offset ∧ sh < 32 ∧ x = (stored reg s &&& ~~~m) ||| ((v <<< sh) &&& m)
  | _ => False

/-- The bounds R8 sets on the host's OPEN parameters. -/
def ParamsOk (d : Driver) : Prop :=
  (d.nTx % 8 = 0 ∧ 8 ≤ d.nTx ∧ d.nTx ≤ 65528) ∧ (d.nRx % 8 = 0 ∧ 8 ≤ d.nRx ∧ d.nRx ≤ 65528) ∧ 1 ≤ d.eePollLimit

/-- The regions R714 places, as address and length: two rings, and a buffer for each descriptor. -/
def regions (d : Driver) : List (Addr × Nat) :=
  [(d.txRing, 16 * d.nTx), (d.rxRing, 16 * d.nRx)] ++ d.txBuf.map (fun a => (a, d.txBufSize)) ++ d.rxBuf.map (fun a => (a, 2048))

/-- R714's placement: page-aligned rings, N buffers for each, every region in `MEM`, no byte in two of them. -/
def Placed (s : State) (d : Driver) : Prop :=
  d.txRing.toNat % 4096 = 0 ∧ d.rxRing.toNat % 4096 = 0 ∧ d.txBuf.length = d.nTx ∧ d.rxBuf.length = d.nRx
  ∧ (∀ g ∈ regions d, InMem s g.1 g.2)
  ∧ (regions d).Pairwise (fun g h => ∀ x, ¬ (Inside x g.1 g.2 ∧ Inside x h.1 h.2))

/-- A turn of a device agent or of the world around it: any but the host's. -/
def DeviceTurn (t : Turn) : Prop := t ≠ .host

end Sys2Proof.Stated

open Sys2Proof.Stated

/-! ### Decoding -/

/-- Decode of encode is the instruction, for every well-formed instruction of the opcode table (R140, R141, R150, R160,
R170). -/
def Obligations.DecodeOfEncodeIsTheInstruction : Prop :=
  ∀ i : Instr, WellFormed i → decode (encode i) = .ok i

/-- Encode of decode is the code, for every code the decoder accepts whose read accesses carry no data. -/
def Obligations.EncodeOfDecodeIsTheCode : Prop :=
  ∀ (c : Code) (i : Instr), decode c = .ok i →
    (∀ a, c = .access a → a.write = false → a.data = 0) → encode i = c

/-- R104, R105, R142: the checks of a register access in their order, each with its mark and no other effect; an access
that passes them runs its register's instruction. -/
def Obligations.AccessChecksInOrder : Prop :=
  ∀ (a : Access) (s : State),
    (a.width ≠ 32 → runCode (.access a) s = .next (refuse (.unsupportedAccessWidth a.offset a.width) .host s))
    ∧ (a.width = 32 → a.offset % 4 ≠ 0 → runCode (.access a) s = .next (raise (.misalignedRegisterAccess a.offset) .host s))
    ∧ (a.width = 32 → a.offset % 4 = 0 → 0x20000 ≤ a.offset →
        runCode (.access a) s = .next (raise (.registerOffsetOutOfRange a.offset) .host s))
    ∧ (a.width = 32 → a.offset % 4 = 0 → a.offset < 0x20000 → (∀ r : Reg, r.offset ≠ a.offset) →
        runCode (.access a) s = .next (refuse (.unmodelledRegister a.offset) .host s))
    ∧ (∀ r : Reg, a.width = 32 → a.offset = r.offset →
        runCode (.access a) s = exec (if a.write then r.writeInstr a.data else r.readInstr) s)

/-- Sanity: a few words written out from the encodings of R141, R150 and R160. -/
def Obligations.WordsDecodeToTheirInstructions : Prop :=
  decodeTableWord 24 0x000C0 = some .rdIcr
  ∧ decodeTableWord 24 0x23818 = some (.wrTdt 0)
  ∧ decodeTableWord 24 0x05404 = some .rdRah0
  ∧ decodeTableWord 24 0x20014 = some (.wrEerd 0)
  ∧ decodeTableWord 24 0x00004 = none
  ∧ decodeTableWord 128 (0x00200000 + 60 * 2 ^ 64 + 9 * 2 ^ 88)
      = some (.txd ⟨0x00200000, 60, 0, 9, 0, 0, 0, 0⟩)
  ∧ decodeTableWord 128 (2 ^ 93) = some (.txdExt ⟨0, 0, 0, 0x20, 0, 0, 0, 0⟩)
  ∧ decode (.rxDesc (BitVec.ofNat 128 (0x00300000 + 60 * 2 ^ 64 + 3 * 2 ^ 96)))
      = .ok (.rxd ⟨0x00300000, 60, 0, 3, 0, 0⟩)

/-! ### The machine's step -/

/-- A step runs the decoded instruction (R43, R120, R142, R256, R321): a host command's code in the host's turn, and the
descriptor at an engine's head in the engine's turn. Around `exec` the step takes the turn off the agenda and counts it
(`State.begin`), and takes the host's command off its program. -/
def Obligations.StepRunsTheDecodedInstruction : Prop :=
  ∀ s : State, s.Unmarked →
    (∀ a rest i, s.turn = .host → s.code = .access a :: rest → decode (.access a) = .ok i →
        step s = exec i { s.begin with code := rest })
    ∧ (∀ o rest, s.turn = .host → s.code = .op o :: rest → step s = exec o.instr { s.begin with code := rest })
    ∧ (s.turn = .txEngine → s.txCanStep = true → InMem s (txDescAddr s s.tdh.toNat) 16 →
        step s = exec (decodeTxDesc (BitVec.ofNat 128 (leNat (readBytes s.mem (txDescAddr s s.tdh.toNat) 16)))) s.begin)
    ∧ (s.turn = .rxEngine → s.rxCanStep = true → InMem s (rxDescAddr s s.rdh.toNat) 8 →
        (storedBytes s.rctl (s.rxFifo.headD [])).length ≤ rxBufferSize s.rctl →
        step s = exec (decodeRxDesc (BitVec.ofNat 128 (leNat (readBytes s.mem (rxDescAddr s s.rdh.toNat) 16)))) s.begin)

/-- R603: a fault or refusal sets its mark, with the reason and the step that raised it, if none is set; a marked state is
quiescent for ever: its step answers the reason, never a next state; and it is not final. Both marks are empty at reset. That
a mark names the step that raised it by its agent and its number (log 10), and that the step from a marked state answers
.fault or .refused with the marked reason (log 1), are the model's choices. -/
def Obligations.MarkedStateIsQuiescent : Prop :=
  (∀ (s : State) f g, s.fault = none → (raise f g s).fault = some ⟨f, g, s.steps⟩)
  ∧ (∀ (s : State) f g m, s.fault = some m → (raise f g s).fault = some m)
  ∧ (∀ (s : State) f g, s.refused = none → (refuse f g s).refused = some ⟨f, g, s.steps⟩)
  ∧ (∀ (s : State) f g m, s.refused = some m → (refuse f g s).refused = some m)
  ∧ (∀ (s : State) m, s.fault = some m → step s = .fault m.what)
  ∧ (∀ (s : State) m, s.fault = none → s.refused = some m → step s = .refused m.what)
  ∧ (∀ s t : State, s.marked = true → step s ≠ .next t)
  ∧ (∀ s : State, s.marked = true → s.final = false)
  ∧ State.reset.fault = none ∧ State.reset.refused = none

/-- R604: a step that raises a fault or a refusal changes no register, no memory, no internal state and no history, but for
the store of TCTL or RCTL, which comes first: in a next state that is marked only the mark, the host's program and the
turn and step numbers differ. The same of one instruction, which changes its mark only. -/
def Obligations.FaultsArePrecise : Prop :=
  (∀ (i : Instr) (s t : State), s.Unmarked → exec i s = .next t → t.marked = true →
    OnlyMarks s t ∨ (∃ v, i = .wrTctl v ∧ OnlyMarks { s with tctl := v } t)
      ∨ (∃ v, i = .wrRctl v ∧ OnlyMarks { s with rctl := v } t))
  ∧ ∀ s t : State, step s = .next t → t.marked = true →
    let marks (u : State) : Prop :=
      t = { u with fault := t.fault, refused := t.refused, code := t.code, agenda := s.agenda.tail, steps := s.steps + 1 }
    marks s
    ∨ (s.turn = .host ∧ ∃ v rest, s.code = .access ⟨32, true, 0x00400, v⟩ :: rest ∧ marks { s with tctl := v })
    ∨ (s.turn = .host ∧ ∃ v rest, s.code = .access ⟨32, true, 0x00100, v⟩ :: rest ∧ marks { s with rctl := v })

/-- Every step keeps the invariant of the machine (`State.Inv`), from every state that has it. -/
def Obligations.StepKeepsInvariant : Prop :=
  ∀ s t : State, s.Inv → step s = .next t → t.Inv

/-- The invariant holds after reset. -/
def Obligations.ResetHasInvariant : Prop := State.reset.Inv

/-- R407 with the reset values of R64 and R701: every register is 0, the internal state empty or false, the marks empty,
the host in its thread context with interrupts disabled and no consumer; the line is deasserted, and no engine has a
step. -/
def Obligations.ResetState : Prop :=
  let s := State.reset
  s.icr = 0 ∧ s.mask = 0 ∧ s.line = false
  ∧ (s.eerdAddr = 0 ∧ s.eerdDone = false ∧ s.eerdData = 0)
  ∧ (s.rctl = 0 ∧ s.tctl = 0 ∧ s.tipg = 0 ∧ s.ral0 = 0 ∧ s.rah0 = 0)
  ∧ (s.rdbal = 0 ∧ s.rdbah = 0 ∧ s.rdlen = 0 ∧ s.rdh = 0 ∧ s.rdt = 0)
  ∧ (s.tdbal = 0 ∧ s.tdbah = 0 ∧ s.tdlen = 0 ∧ s.tdh = 0 ∧ s.tdt = 0)
  ∧ (s.txAccum = [] ∧ s.rxFifo = [] ∧ s.rxTimerArmed = false ∧ s.eeBusy = false ∧ s.history = [])
  ∧ (s.fault = none ∧ s.refused = none)
  ∧ (s.ctx = .thread ∧ s.ie = false ∧ s.irqUnmasked = false ∧ s.blocked = none)
  ∧ s.txCanStep = false ∧ s.rxCanStep = false

/-! ### Register accesses -/

/-- R54: a length write while disabled stores all 32 bits; the model's check of a ring length is the rule's, and a legal
length makes a ring of a multiple of 8 descriptors, between 8 and 65528; the lengths after reset are 0, which is illegal. -/
def Obligations.LegalLengthsMakeRings : Prop :=
  (∀ (s : State) (v : Word), (s.tctl.getLsbD 1 = false → exec (.wrTdlen v) s = .next { s with tdlen := v })
      ∧ (s.rctl.getLsbD 1 = false → exec (.wrRdlen v) s = .next { s with rdlen := v }))
  ∧ (∀ len : Word, lenLegal len = true ↔ (len.extractLsb' 0 7 = 0 ∧ len.extractLsb' 20 12 = 0 ∧ len ≠ 0))
  ∧ (∀ len : Word, lenLegal len = true ↔ Legal len)
  ∧ (∀ len : Word, Legal len → ringSize len = len.toNat / 16 ∧ ringSize len % 8 = 0 ∧ 8 ≤ ringSize len ∧ ringSize len ≤ 65528)
  ∧ State.reset.tdlen = 0 ∧ State.reset.rdlen = 0 ∧ lenLegal 0 = false

/-- R240, R241, R242: the transmit base and length registers: keys, reads, writes while disabled, F6 while enabled, and
what a misaligned base or an illegal length that was stored does later. -/
def Obligations.TransmitBaseAndLengthAccess : Prop :=
  Keys 0x03800 .rdTdbal .wrTdbal ∧ Keys 0x03804 .rdTdbah .wrTdbah ∧ Keys 0x03808 .rdTdlen .wrTdlen
  ∧ (∀ s, exec .rdTdbal s = .next { s with r := s.tdbal.setWidth 64 })
  ∧ (∀ s, exec .rdTdbah s = .next { s with r := s.tdbah.setWidth 64 })
  ∧ (∀ s, exec .rdTdlen s = .next { s with r := s.tdlen.setWidth 64 })
  ∧ (∀ s v, s.tctl.getLsbD 1 = false →
      exec (.wrTdbal v) s = .next { s with tdbal := v }
      ∧ exec (.wrTdbah v) s = .next { s with tdbah := v }
      ∧ exec (.wrTdlen v) s = .next { s with tdlen := v })
  ∧ (∀ s v, s.tctl.getLsbD 1 = true →
      exec (.wrTdbal v) s = .next (raise (.configWhileEnabled .tdbal) .host s)
      ∧ exec (.wrTdbah v) s = .next (raise (.configWhileEnabled .tdbah) .host s)
      ∧ exec (.wrTdlen v) s = .next (raise (.configWhileEnabled .tdlen) .host s))
  ∧ (∀ s v, Legal s.tdlen → s.tdbal.toNat % 16 ≠ 0 → v.getLsbD 1 = true →
      exec (.wrTctl v) s = .next (raise (.badRingBase s.tdbal) .host { s with tctl := v }))
  ∧ (∀ s v, ¬ Legal s.tdlen → v.getLsbD 1 = true →
      exec (.wrTctl v) s = .next (raise (.badRingLength s.tdlen) .host { s with tctl := v }))
  ∧ (∀ s v, ¬ Legal s.tdlen → v ≠ 0 →
      exec (.wrTdt v) s = .next (raise (.cursorOutOfRange .tdt v) .host s)
      ∧ (s.tctl.getLsbD 1 = false → exec (.wrTdh v) s = .next (raise (.cursorOutOfRange .tdh v) .host s)))
  ∧ Legal 0x80 ∧ size 0x80 = 8

/-- R300, R301, R302: the receive base and length registers, likewise. -/
def Obligations.ReceiveBaseAndLengthAccess : Prop :=
  Keys 0x02800 .rdRdbal .wrRdbal ∧ Keys 0x02804 .rdRdbah .wrRdbah ∧ Keys 0x02808 .rdRdlen .wrRdlen
  ∧ (∀ s, exec .rdRdbal s = .next { s with r := s.rdbal.setWidth 64 })
  ∧ (∀ s, exec .rdRdbah s = .next { s with r := s.rdbah.setWidth 64 })
  ∧ (∀ s, exec .rdRdlen s = .next { s with r := s.rdlen.setWidth 64 })
  ∧ (∀ s v, s.rctl.getLsbD 1 = false →
      exec (.wrRdbal v) s = .next { s with rdbal := v }
      ∧ exec (.wrRdbah v) s = .next { s with rdbah := v }
      ∧ exec (.wrRdlen v) s = .next { s with rdlen := v })
  ∧ (∀ s v, s.rctl.getLsbD 1 = true →
      exec (.wrRdbal v) s = .next (raise (.configWhileEnabled .rdbal) .host s)
      ∧ exec (.wrRdbah v) s = .next (raise (.configWhileEnabled .rdbah) .host s)
      ∧ exec (.wrRdlen v) s = .next (raise (.configWhileEnabled .rdlen) .host s))
  ∧ (∀ s v, Legal s.rdlen → s.rdbal.toNat % 16 ≠ 0 → v.getLsbD 1 = true →
      exec (.wrRctl v) s = .next (raise (.badRingBase s.rdbal) .host { s with rctl := v }))
  ∧ (∀ s v, ¬ Legal s.rdlen → v.getLsbD 1 = true →
      exec (.wrRctl v) s = .next (raise (.badRingLength s.rdlen) .host { s with rctl := v }))
  ∧ (∀ s v, ¬ Legal s.rdlen → v ≠ 0 →
      exec (.wrRdt v) s = .next (raise (.cursorOutOfRange .rdt v) .host s)
      ∧ (s.rctl.getLsbD 1 = false → exec (.wrRdh v) s = .next (raise (.cursorOutOfRange .rdh v) .host s)))
  ∧ Legal 0x80 ∧ size 0x80 = 8

/-- R243, R303: the heads: keys, reads (bits 31:16 are 0), and each case of a write. -/
def Obligations.HeadAccess : Prop :=
  Keys 0x03810 .rdTdh .wrTdh ∧ Keys 0x02810 .rdRdh .wrRdh
  ∧ (∀ s, exec .rdTdh s = .next { s with r := s.tdh.setWidth 64 })
  ∧ (∀ s, exec .rdRdh s = .next { s with r := s.rdh.setWidth 64 })
  ∧ (∀ s v, s.tctl.getLsbD 1 = true → exec (.wrTdh v) s = .next (raise (.configWhileEnabled .tdh) .host s))
  ∧ (∀ s v, s.rctl.getLsbD 1 = true → exec (.wrRdh v) s = .next (raise (.configWhileEnabled .rdh) .host s))
  ∧ (∀ s v, s.tctl.getLsbD 1 = false →
      (v.toNat ≥ 0x10000 ∨ (Legal s.tdlen ∧ v.toNat ≥ size s.tdlen) ∨ (¬ Legal s.tdlen ∧ v ≠ 0)) →
      exec (.wrTdh v) s = .next (raise (.cursorOutOfRange .tdh v) .host s))
  ∧ (∀ s v, s.rctl.getLsbD 1 = false →
      (v.toNat ≥ 0x10000 ∨ (Legal s.rdlen ∧ v.toNat ≥ size s.rdlen) ∨ (¬ Legal s.rdlen ∧ v ≠ 0)) →
      exec (.wrRdh v) s = .next (raise (.cursorOutOfRange .rdh v) .host s))
  ∧ (∀ s v, s.tctl.getLsbD 1 = false → ((Legal s.tdlen ∧ v.toNat < size s.tdlen) ∨ (¬ Legal s.tdlen ∧ v = 0)) →
      exec (.wrTdh v) s = .next { s with tdh := v.setWidth 16 })
  ∧ (∀ s v, s.rctl.getLsbD 1 = false → ((Legal s.rdlen ∧ v.toNat < size s.rdlen) ∨ (¬ Legal s.rdlen ∧ v = 0)) →
      exec (.wrRdh v) s = .next { s with rdh := v.setWidth 16 })

/-- R244, R304: the tails, which are the doorbells: keys, reads, each case of a write, whether the ring is enabled or
not; a tail written onto the head leaves the device nothing, and writing the value held changes nothing. -/
def Obligations.TailAccess : Prop :=
  Keys 0x03818 .rdTdt .wrTdt ∧ Keys 0x02818 .rdRdt .wrRdt
  ∧ (∀ s, exec .rdTdt s = .next { s with r := s.tdt.setWidth 64 })
  ∧ (∀ s, exec .rdRdt s = .next { s with r := s.rdt.setWidth 64 })
  ∧ (∀ s v, (v.toNat ≥ 0x10000 ∨ (Legal s.tdlen ∧ v.toNat ≥ size s.tdlen) ∨ (¬ Legal s.tdlen ∧ v ≠ 0)) →
      exec (.wrTdt v) s = .next (raise (.cursorOutOfRange .tdt v) .host s))
  ∧ (∀ s v, (v.toNat ≥ 0x10000 ∨ (Legal s.rdlen ∧ v.toNat ≥ size s.rdlen) ∨ (¬ Legal s.rdlen ∧ v ≠ 0)) →
      exec (.wrRdt v) s = .next (raise (.cursorOutOfRange .rdt v) .host s))
  ∧ (∀ s v, ((Legal s.tdlen ∧ v.toNat < size s.tdlen) ∨ (¬ Legal s.tdlen ∧ v = 0)) →
      exec (.wrTdt v) s = .next { s with tdt := v.setWidth 16 }
      ∧ (v.setWidth 16 = s.tdt → exec (.wrTdt v) s = .next s)
      ∧ (v.setWidth 16 = s.tdh → ∀ i, ¬ Owns { s.txRing with tail := v.setWidth 16 } i))
  ∧ (∀ s v, ((Legal s.rdlen ∧ v.toNat < size s.rdlen) ∨ (¬ Legal s.rdlen ∧ v = 0)) →
      exec (.wrRdt v) s = .next { s with rdt := v.setWidth 16 }
      ∧ (v.setWidth 16 = s.rdt → exec (.wrRdt v) s = .next s)
      ∧ (v.setWidth 16 = s.rdh → ∀ i, ¬ Owns { s.rxRing with tail := v.setWidth 16 } i))
  ∧ (∀ s : State, Legal s.tdlen → s.tdh = 0 → ∀ i, Owns { s.txRing with tail := 1 } i ↔ i = 0)
  ∧ (∀ s : State, size s.rdlen = 8 → Legal s.rdlen → s.rdh = 0 → ∀ i, Owns { s.rxRing with tail := 7 } i ↔ i < 7)

/-- `rd TCTL` and `wr TCTL, v` (R245, R246): the store comes first; with EN = 1 the checks F7, F8, F5, F13 in that
order. That F5 checks the head first and records the cursor's value is the model's choice (log 10). -/
def Obligations.TransmitControlAccess : Prop :=
  Keys 0x00400 .rdTctl .wrTctl
  ∧ (∀ s, exec .rdTctl s = .next { s with r := s.tctl.setWidth 64 })
  ∧ ∀ (s : State) (v : Word),
    (v.getLsbD 1 = false → exec (.wrTctl v) s = .next { s with tctl := v })
    ∧ (v.getLsbD 1 = true →
      (¬ Legal s.tdlen → exec (.wrTctl v) s = .next (raise (.badRingLength s.tdlen) .host { s with tctl := v }))
      ∧ (Legal s.tdlen → s.tdbal.toNat % 16 ≠ 0 →
          exec (.wrTctl v) s = .next (raise (.badRingBase s.tdbal) .host { s with tctl := v }))
      ∧ (Legal s.tdlen → s.tdbal.toNat % 16 = 0 → size s.tdlen ≤ s.tdh.toNat →
          exec (.wrTctl v) s = .next (raise (.cursorOutOfRange .tdh (s.tdh.setWidth 32)) .host { s with tctl := v }))
      ∧ (Legal s.tdlen → s.tdbal.toNat % 16 = 0 → s.tdh.toNat < size s.tdlen → size s.tdlen ≤ s.tdt.toNat →
          exec (.wrTctl v) s = .next (raise (.cursorOutOfRange .tdt (s.tdt.setWidth 32)) .host { s with tctl := v }))
      ∧ (GoodRing s.txRing → s.tdbal.toNat % 16 = 0 → v &&& 0xFFC00005#32 ≠ 0 →
          exec (.wrTctl v) s = .next (refuse (.unmodelledControlField .tctl v) .host { s with tctl := v }))
      ∧ (GoodRing s.txRing → s.tdbal.toNat % 16 = 0 → v &&& 0xFFC00005#32 = 0 →
          exec (.wrTctl v) s = .next { s with tctl := v }))

/-- `rd RCTL` and `wr RCTL, v` (R305, R306), likewise, with the same model's choice for F5 (log 10). -/
def Obligations.ReceiveControlAccess : Prop :=
  Keys 0x00100 .rdRctl .wrRctl
  ∧ (∀ s, exec .rdRctl s = .next { s with r := s.rctl.setWidth 64 })
  ∧ ∀ (s : State) (v : Word),
    (v.getLsbD 1 = false → exec (.wrRctl v) s = .next { s with rctl := v })
    ∧ (v.getLsbD 1 = true →
      (¬ Legal s.rdlen → exec (.wrRctl v) s = .next (raise (.badRingLength s.rdlen) .host { s with rctl := v }))
      ∧ (Legal s.rdlen → s.rdbal.toNat % 16 ≠ 0 →
          exec (.wrRctl v) s = .next (raise (.badRingBase s.rdbal) .host { s with rctl := v }))
      ∧ (Legal s.rdlen → s.rdbal.toNat % 16 = 0 → size s.rdlen ≤ s.rdh.toNat →
          exec (.wrRctl v) s = .next (raise (.cursorOutOfRange .rdh (s.rdh.setWidth 32)) .host { s with rctl := v }))
      ∧ (Legal s.rdlen → s.rdbal.toNat % 16 = 0 → s.rdh.toNat < size s.rdlen → size s.rdlen ≤ s.rdt.toNat →
          exec (.wrRctl v) s = .next (raise (.cursorOutOfRange .rdt (s.rdt.setWidth 32)) .host { s with rctl := v }))
      ∧ (GoodRing s.rxRing → s.rdbal.toNat % 16 = 0 → v &&& 0xFBEC4CFD#32 ≠ 0 →
          exec (.wrRctl v) s = .next (refuse (.unmodelledControlField .rctl v) .host { s with rctl := v }))
      ∧ (GoodRing s.rxRing → s.rdbal.toNat % 16 = 0 → v &&& 0xFBEC4CFD#32 = 0 →
          exec (.wrRctl v) s = .next { s with rctl := v }))

/-- RAL0 and RAH0 (R307, R308) are stored and read back, whatever is enabled. -/
def Obligations.FilterRegistersAccess : Prop :=
  Keys 0x05400 .rdRal0 .wrRal0 ∧ Keys 0x05404 .rdRah0 .wrRah0
  ∧ ∀ (s : State) (v : Word),
    exec .rdRal0 s = .next { s with r := s.ral0.setWidth 64 }
    ∧ exec (.wrRal0 v) s = .next { s with ral0 := v }
    ∧ exec .rdRah0 s = .next { s with r := s.rah0.setWidth 64 }
    ∧ exec (.wrRah0 v) s = .next { s with rah0 := v }

/-- R391: the drain returns every latched cause, masked or not, clears them all and emits Drain, as one step; with
nothing latched it returns 0 and changes nothing but the history and the value read. -/
def Obligations.DrainReturnsAndClears : Prop :=
  ReadKey 0x000C0 .rdIcr
  ∧ (∀ s, exec .rdIcr s = .next { s with
      icr := 0, history := s.history ++ [.drain (s.icr &&& 0x0001FFFF#32)], r := (s.icr &&& 0x0001FFFF#32).setWidth 64 })
  ∧ (∀ s, s.icr = 0 → exec .rdIcr s = .next { s with history := s.history ++ [.drain 0], r := 0 })

/-- R392, R394, R397, R399: the writes of ICR, ICS, IMS and IMC set or clear exactly the cause bits written as 1; what
each does to the line. -/
def Obligations.CauseWritesSetAndClear : Prop :=
  WriteKey 0x000C0 .wrIcr ∧ WriteKey 0x000C8 .wrIcs ∧ WriteKey 0x000D0 .wrIms ∧ WriteKey 0x000D8 .wrImc
  ∧ (∀ s v, exec (.wrIcr v) s = .next { s with icr := s.icr &&& ~~~(v &&& 0x0001FFFF#32) })
  ∧ (∀ s v, exec (.wrIcs v) s = .next { s with icr := s.icr ||| (v &&& 0x0001FFFF#32) })
  ∧ (∀ s v, exec (.wrIms v) s = .next { s with mask := s.mask ||| (v &&& 0x0001FFFF#32) })
  ∧ (∀ s v, exec (.wrImc v) s = .next { s with mask := s.mask &&& ~~~(v &&& 0x0001FFFF#32) })
  ∧ (∀ s t, exec (.wrIcr 0) s = .next t → t = s) ∧ (∀ s t, exec (.wrIcs 0) s = .next t → t = s)
  ∧ (∀ s t v, v &&& 0x0001FFFF#32 &&& s.mask = 0 → exec (.wrIcs v) s = .next t → t.line = s.line)
  ∧ (∀ s t v, s.icr &&& (v &&& 0x0001FFFF#32) ≠ 0 → exec (.wrIms v) s = .next t → t.line = true)
  ∧ (∀ s t, s.mask &&& ~~~0x0001FFFF#32 = 0 → exec (.wrImc 0xFFFFFFFF) s = .next t → t.mask = 0 ∧ t.line = false)

/-- R395, R398, R400, and R204's value: `rd IMS` returns the mask, whose bits 31:17 are 0; `rd STATUS`, `rd ICS` and `rd IMC` return some 32-bit value, of which
nothing is said, and change nothing else but which free value comes next. -/
def Obligations.MaskAndDrawnReads : Prop :=
  ReadKey 0x00008 .rdStatus ∧ ReadKey 0x000C8 .rdIcs ∧ ReadKey 0x000D0 .rdIms ∧ ReadKey 0x000D8 .rdImc
  ∧ ∀ s : State, exec .rdIms s = .next { s with r := s.mask.setWidth 64 }
    ∧ (s.Inv → s.mask.extractLsb' 17 15 = 0)
    ∧ (∃ v : Word, exec .rdStatus s = .next { s with r := v.setWidth 64, draws := s.draws + 1 })
    ∧ (∃ v : Word, exec .rdIcs s = .next { s with r := v.setWidth 64, draws := s.draws + 1 })
    ∧ (∃ v : Word, exec .rdImc s = .next { s with r := v.setWidth 64, draws := s.draws + 1 })

/-- R205: a write to STATUS is refused with F15, always. -/
def Obligations.StatusWriteIsRefused : Prop :=
  WriteKey 0x00008 .wrStatus
  ∧ ∀ (v : Word) (s : State), exec (.wrStatus v) s = .next (refuse (.writeToReadOnly v) .host s)

/-- R360, R361, R362: the accesses of EERD: F14 while a read is in progress, whatever the value; a write without START
changes ADDR only; a START write also clears DONE, leaves DATA any value and starts the read; a read returns DATA, ADDR,
DONE and some START bit, and 0 elsewhere. -/
def Obligations.EerdAccess : Prop :=
  Keys 0x00014 .rdEerd .wrEerd
  ∧ ∀ s : State,
    (∀ v, s.eeBusy = true → exec (.wrEerd v) s = .next (raise (.eepromBusy v) .host s))
    ∧ (∀ v, s.eeBusy = false → v.getLsbD 0 = false → exec (.wrEerd v) s = .next { s with eerdAddr := v.extractLsb' 8 8 })
    ∧ (∀ v, s.eeBusy = false → v.getLsbD 0 = true → ∃ d : Half, exec (.wrEerd v) s = .next { s with
        eerdAddr := v.extractLsb' 8 8, eerdDone := false, eerdData := d, eeBusy := true, draws := s.draws + 1 })
    ∧ (∃ b : BitVec 1, exec .rdEerd s = .next { s with
        draws := s.draws + 1, r := (s.eerdData ++ s.eerdAddr ++ 0#3 ++ BitVec.ofBool s.eerdDone ++ 0#3 ++ b : Word).setWidth 64 })

/-- R108: of the register reads only ICR's has a side effect: any other changes nothing but the value read and which
free value comes next. -/
def Obligations.OnlyTheDrainReadHasASideEffect : Prop :=
  (∀ (reg : Reg) (s t : State), reg ≠ .icr → exec reg.readInstr s = .next t → t = { s with r := t.r, draws := t.draws })
  ∧ (∀ s t : State, exec .rdIcr s = .next t → t = { s with r := t.r, icr := 0, history := t.history })

/-- Frame of all 42 register accesses: memory, the engines' internal state and the host's contexts are untouched; each
register is changed only by its own accesses, ICR also by an ICS write and the mask by IMS and IMC writes; the history only
by the drain; the value read only by a read; free values are drawn only by the reads of STATUS, ICS, IMC and EERD and by an
EERD write. -/
def Obligations.RegisterAccessFrame : Prop :=
  ∀ (i : Instr) (s t : State), (∃ a, encode i = .access a) → exec i s = .next t →
    (t.mem = s.mem ∧ t.memMap = s.memMap ∧ t.txAccum = s.txAccum ∧ t.rxFifo = s.rxFifo ∧ t.rxTimerArmed = s.rxTimerArmed)
    ∧ (t.ctx = s.ctx ∧ t.ie = s.ie ∧ t.irqUnmasked = s.irqUnmasked ∧ t.blocked = s.blocked ∧ t.code = s.code
        ∧ t.saved = s.saved ∧ t.results = s.results ∧ t.drv = s.drv)
    ∧ (t.tipg = s.tipg ∨ ∃ v, i = .wrTipg v) ∧ (t.tctl = s.tctl ∨ ∃ v, i = .wrTctl v)
    ∧ (t.rctl = s.rctl ∨ ∃ v, i = .wrRctl v) ∧ (t.ral0 = s.ral0 ∨ ∃ v, i = .wrRal0 v)
    ∧ (t.rah0 = s.rah0 ∨ ∃ v, i = .wrRah0 v)
    ∧ (t.tdbal = s.tdbal ∨ ∃ v, i = .wrTdbal v) ∧ (t.tdbah = s.tdbah ∨ ∃ v, i = .wrTdbah v)
    ∧ (t.tdlen = s.tdlen ∨ ∃ v, i = .wrTdlen v) ∧ (t.tdh = s.tdh ∨ ∃ v, i = .wrTdh v)
    ∧ (t.tdt = s.tdt ∨ ∃ v, i = .wrTdt v)
    ∧ (t.rdbal = s.rdbal ∨ ∃ v, i = .wrRdbal v) ∧ (t.rdbah = s.rdbah ∨ ∃ v, i = .wrRdbah v)
    ∧ (t.rdlen = s.rdlen ∨ ∃ v, i = .wrRdlen v) ∧ (t.rdh = s.rdh ∨ ∃ v, i = .wrRdh v)
    ∧ (t.rdt = s.rdt ∨ ∃ v, i = .wrRdt v)
    ∧ (t.icr = s.icr ∨ i = .rdIcr ∨ (∃ v, i = .wrIcr v) ∨ ∃ v, i = .wrIcs v)
    ∧ (t.mask = s.mask ∨ (∃ v, i = .wrIms v) ∨ ∃ v, i = .wrImc v)
    ∧ (t.eerdAddr = s.eerdAddr ∧ t.eerdDone = s.eerdDone ∧ t.eerdData = s.eerdData ∧ t.eeBusy = s.eeBusy ∨ ∃ v, i = .wrEerd v)
    ∧ (t.history = s.history ∨ i = .rdIcr) ∧ (t.r = s.r ∨ ∃ reg : Reg, i = reg.readInstr)
    ∧ (t.draws = s.draws ∨ i = .rdStatus ∨ i = .rdIcs ∨ i = .rdImc ∨ i = .rdEerd ∨ ∃ v, i = .wrEerd v)

/-! ### Memory -/

/-- Which bytes an access finds missing (R111, R206): none exactly when every byte is in `MEM`, and a missing one is a
byte of the access that is not in `MEM`. -/
def Obligations.MissingByteMeansNotInMem : Prop :=
  (∀ (s : State) (a : Addr) (n : Nat), firstMissing s.memMap a n = none ↔ InMem s a n)
  ∧ (∀ (s : State) (a x : Addr) (n : Nat), firstMissing s.memMap a n = some x → ¬ InMem s x 1 ∧ ∃ k, k < n ∧ x = a + BitVec.ofNat 64 k)

/-- R206: `ld.N a`: F18 for a misaligned address or a byte not in `MEM`, else F10 for a device-owned buffer region, else
the little-endian number of the N bytes is returned and nothing else changes. -/
def Obligations.HostLoad : Prop :=
  ∀ (n : Size) (a : Addr) (s : State),
    ((a.toNat % n.bytes ≠ 0 ∨ ¬ InMem s a n.bytes) →
      exec (.ld n a) s = .next (refuse (.hostAccessUnmapped a) .host s))
    ∧ (a.toNat % n.bytes = 0 → InMem s a n.bytes → s.ownedBufferMeets a n.bytes = true →
      exec (.ld n a) s = .next (raise (.ownershipRace a) .host s))
    ∧ (a.toNat % n.bytes = 0 → InMem s a n.bytes → s.ownedBufferMeets a n.bytes = false →
      exec (.ld n a) s = .next { s with r := BitVec.ofNat 64 (leNat (readBytes s.mem a n.bytes)) })

/-- R207, R208: `st.N a, v` and `copy a, bytes`: F18, then F10 for a device-owned descriptor or buffer region, then the
bytes are written at `a` and every other byte, and all else, is as before. An empty copy writes nothing and cannot
fault. That a copy that runs past the top of the address space goes on at 0 is the model's choice (DEDUCED, log 25). -/
def Obligations.HostStoreAndCopy : Prop :=
  (∀ (n : Size) (a : Addr) (v : BitVec 64) (s : State),
    ((a.toNat % n.bytes ≠ 0 ∨ ¬ InMem s a n.bytes) →
      exec (.st n a v) s = .next (refuse (.hostAccessUnmapped a) .host s))
    ∧ (a.toNat % n.bytes = 0 → InMem s a n.bytes → (s.ownedDescMeets a n.bytes || s.ownedBufferMeets a n.bytes) = true →
      exec (.st n a v) s = .next (raise (.ownershipRace a) .host s))
    ∧ (a.toNat % n.bytes = 0 → InMem s a n.bytes → (s.ownedDescMeets a n.bytes || s.ownedBufferMeets a n.bytes) = false →
      ∃ t, exec (.st n a v) s = .next t ∧ t = { s with mem := t.mem }
        ∧ leNat (readBytes t.mem a n.bytes) = v.toNat % 256 ^ n.bytes
        ∧ ∀ x : Addr, ¬ Inside x a n.bytes → memGet t.mem x.toNat = memGet s.mem x.toNat))
  ∧ (∀ (a : Addr) (bs : List Byte) (s : State), bs.length ≤ 2 ^ 64 →
    (¬ InMem s a bs.length → exec (.copy a bs) s = .next (refuse (.hostAccessUnmapped a) .host s))
    ∧ (InMem s a bs.length → (s.ownedDescMeets a bs.length || s.ownedBufferMeets a bs.length) = true →
      exec (.copy a bs) s = .next (raise (.ownershipRace a) .host s))
    ∧ (InMem s a bs.length → (s.ownedDescMeets a bs.length || s.ownedBufferMeets a bs.length) = false →
      ∃ t, exec (.copy a bs) s = .next t ∧ t = { s with mem := t.mem } ∧ readBytes t.mem a bs.length = bs
        ∧ ∀ x : Addr, ¬ Inside x a bs.length → memGet t.mem x.toNat = memGet s.mem x.toNat))
  ∧ (∀ (a : Addr) (s : State), exec (.copy a []) s = .next s)

/-- What a store wrote, the next load of the same size at the same address returns (R120, R206, R207). -/
def Obligations.LoadReturnsWhatWasStored : Prop :=
  ∀ (n : Size) (a : Addr) (v : BitVec 64) (s t : State), s.Unmarked → exec (.st n a v) s = .next t → t.Unmarked →
    exec (.ld n a) t = .next { t with r := BitVec.ofNat 64 (v.toNat % 256 ^ n.bytes) }

/-- R60, R265: on a ring with a legal length and cursors in range, the device owns exactly the cyclic interval
[head, tail); it owns nothing when head = tail, never the descriptor at the tail, and at most N - 1 descriptors. An engine
has a step only while it owns the descriptor at its head. -/
def Obligations.OwnershipIsTheCyclicInterval : Prop :=
  (∀ v : RingView, GoodRing v →
    (∀ i, v.owns i = true ↔ Owns v i) ∧ (∀ i, (∃ k, k < v.ownedCount ∧ v.ownedIndex k = i) ↔ Owns v i)
    ∧ (v.head = v.tail → ∀ i, ¬ Owns v i) ∧ (v.head ≠ v.tail → Owns v v.head.toNat) ∧ ¬ Owns v v.tail.toNat)
  ∧ (∀ v : RingView, Legal v.len → v.ownedCount ≤ size v.len - 1)
  ∧ ∀ s : State, (GoodRing s.txRing → s.txCanStep = true → Owns s.txRing s.tdh.toNat)
    ∧ (GoodRing s.rxRing → s.rxCanStep = true → Owns s.rxRing s.rdh.toNat)

/-- R115, R116: which accesses race: one that shares a byte with a device-owned descriptor, or with the buffer region of a
device-owned descriptor, in either ring. That a ring of illegal length owns nothing, and that an owned descriptor outside
`MEM` has no buffer region, are the model's choices (DEDUCED, logs 11 and 12). -/
def Obligations.OwnedRegions : Prop :=
  ∀ (s : State) (a : Addr) (n : Nat), RingOrNone s.txRing → RingOrNone s.rxRing →
    (s.ownedDescMeets a n = true ↔ ∃ x, Inside x a n ∧
      ((∃ i, Owns s.txRing i ∧ Inside x (txDescAddr s i) 16) ∨ (∃ i, Owns s.rxRing i ∧ Inside x (rxDescAddr s i) 16)))
    ∧ (s.ownedBufferMeets a n = true ↔ ∃ x, Inside x a n ∧
      ((∃ i, Owns s.txRing i ∧ InMem s (txDescAddr s i) 16
          ∧ Inside x (BitVec.ofNat 64 (leNat (readBytes s.mem (txDescAddr s i) 8)))
              (leNat (readBytes s.mem (txDescAddr s i + 8) 2)))
        ∨ (∃ i, Owns s.rxRing i ∧ InMem s (rxDescAddr s i) 16
          ∧ Inside x (BitVec.ofNat 64 (leNat (readBytes s.mem (rxDescAddr s i) 8))) 2048)))

/-! ### The transmit engine -/

/-- R257, with the rest of the transmit step of R256: a legacy descriptor whose command and length are admitted and whose
bytes are in `MEM` runs: its bytes join `tx_accum`, EOP emits the frame and empties it, RS writes the status byte with
DD = 1 and nothing else of memory, RS = 0 writes nothing, the head advances by one modulo N, and nothing else changes. -/
def Obligations.TransmitDescriptorRuns : Prop :=
  ∀ (d : TxDesc) (s : State), s.txCanStep = true →
    d.cmd.getLsbD 2 = false → d.cmd.getLsbD 4 = false → d.cmd.getLsbD 6 = false →
    0 < d.length.toNat → d.length.toNat ≤ 16288 → InMem s d.bufferAddr d.length.toNat →
    (d.cmd.getLsbD 3 = true → InMem s (txDescAddr s s.tdh.toNat + 12) 1) →
    ∃ t, exec (.txd d) s = .next t
      ∧ (d.cmd.getLsbD 0 = true → t.txAccum = [] ∧ t.history = s.history ++
          [.txFrame (Config.wireImage (s.txAccum ++ readBytes s.mem d.bufferAddr d.length.toNat) (d.cmd.getLsbD 1) (s.tctl.getLsbD 3))])
      ∧ (d.cmd.getLsbD 0 = false →
          t.txAccum = s.txAccum ++ readBytes s.mem d.bufferAddr d.length.toNat ∧ t.history = s.history)
      ∧ (d.cmd.getLsbD 3 = true → (∃ b : BitVec 7, memGet t.mem (txDescAddr s s.tdh.toNat + 12).toNat = b ++ 1#1)
          ∧ ∀ x : Addr, x ≠ txDescAddr s s.tdh.toNat + 12 → memGet t.mem x.toNat = memGet s.mem x.toNat)
      ∧ (d.cmd.getLsbD 3 = false → t.mem = s.mem ∧ t.draws = s.draws)
      ∧ (Legal s.tdlen → t.tdh.toNat = (s.tdh.toNat + 1) % size s.tdlen)
      ∧ t = { s with txAccum := t.txAccum, history := t.history, mem := t.mem, draws := t.draws, tdh := t.tdh }

/-- The stops of a transmit step (R256, R261, R262, R606), in their order: F9 on the descriptor, F11, F17, F12, F9 on the
buffer; each sets its mark and nothing else changes. That F9 records the first missing byte is the model's choice
(log 10). -/
def Obligations.TransmitDescriptorStops : Prop :=
  ∀ s : State, s.txCanStep = true →
    (∀ a, firstMissing s.memMap (txDescAddr s s.tdh.toNat) 16 = some a →
      runTurn .txEngine s = .next (raise (.dmaUnmapped a .tx s.tdh.toNat) .txEngine s))
    ∧ (∀ d, exec (.txdExt d) s = .next (refuse (.extendedDescriptor s.tdh.toNat) .txEngine s))
    ∧ (∀ d : TxDesc, (d.cmd.getLsbD 2 = true ∨ d.cmd.getLsbD 4 = true ∨ d.cmd.getLsbD 6 = true) →
      exec (.txd d) s = .next (refuse (.unmodelledDescriptorField s.tdh.toNat) .txEngine s))
    ∧ (∀ d : TxDesc, d.cmd.getLsbD 2 = false → d.cmd.getLsbD 4 = false → d.cmd.getLsbD 6 = false →
      (d.length.toNat = 0 ∨ d.length.toNat > 16288) →
      exec (.txd d) s = .next (raise (.badTxLength s.tdh.toNat) .txEngine s))
    ∧ (∀ (d : TxDesc) (a : Addr), d.cmd.getLsbD 2 = false → d.cmd.getLsbD 4 = false → d.cmd.getLsbD 6 = false →
      0 < d.length.toNat → d.length.toNat ≤ 16288 → firstMissing s.memMap d.bufferAddr d.length.toNat = some a →
      exec (.txd d) s = .next (raise (.dmaUnmapped a .tx s.tdh.toNat) .txEngine s))

/-- R153, and R262's word on IDE: cso, css, special, the old status byte and IDE make no difference to a transmit
step. -/
def Obligations.TransmitIgnoresUnusedFields : Prop :=
  ∀ (d e : TxDesc) (s : State), e.bufferAddr = d.bufferAddr → e.length = d.length →
    e.cmd.extractLsb' 0 7 = d.cmd.extractLsb' 0 7 → exec (.txd e) s = exec (.txd d) s

/-- R264, R255: with TCTL.EN = 0, or owning nothing, the transmit engine has no step: its turn changes nothing. -/
def Obligations.TransmitEngineIdle : Prop :=
  ∀ s : State, (s.tctl.getLsbD 1 = false ∨ s.tdh = s.tdt) →
    runTurn .txEngine s = .next s ∧ (∀ d, exec (.txd d) s = .next s) ∧ ∀ d, exec (.txdExt d) s = .next s

/-! ### The receive side -/

/-- R325, with the rest of the receive step of R321: a queued frame that fits the buffer RCTL selects, and whose bytes are
in `MEM`, is written: the stored bytes (without the FCS when SECRC = 1) to the buffer, then bytes 8 to 15 of the
descriptor with the length and DD = EOP = 1; the frame leaves the FIFO, the head advances by one modulo N, the receive
timer is armed, and nothing else changes. -/
def Obligations.ReceiveDescriptorRuns : Prop :=
  ∀ (d : RxDesc) (s : State) (f : List Byte) (q : List (List Byte)) (stored : List Byte), s.rxCanStep = true →
    s.rxFifo = f :: q → stored = (if s.rctl.getLsbD 26 then f.take (f.length - 4) else f) →
    stored.length ≤ 2048 / 2 ^ (s.rctl.extractLsb' 16 2).toNat →
    InMem s d.bufferAddr stored.length → InMem s (rxDescAddr s s.rdh.toNat + 8) 8 →
    ∃ t, exec (.rxd d) s = .next t
      ∧ t.rxFifo = q ∧ t.rxTimerArmed = true
      ∧ (Legal s.rdlen → t.rdh.toNat = (s.rdh.toNat + 1) % size s.rdlen)
      ∧ leNat (readBytes t.mem (rxDescAddr s s.rdh.toNat + 8) 2) = stored.length
      ∧ (∃ b : BitVec 6, memGet t.mem (rxDescAddr s s.rdh.toNat + 12).toNat = b ++ 3#2)
      ∧ (∀ x : Addr, ¬ Inside x (rxDescAddr s s.rdh.toNat + 8) 8 →
          (Inside x d.bufferAddr stored.length → memGet t.mem x.toNat = stored.getD (x - d.bufferAddr).toNat 0)
          ∧ (¬ Inside x d.bufferAddr stored.length → memGet t.mem x.toNat = memGet s.mem x.toNat))
      ∧ t = { s with mem := t.mem, draws := t.draws, rxFifo := t.rxFifo, rdh := t.rdh, rxTimerArmed := true }

/-- The stops of a receive step (R321, R322, R606), in their order: F16, F9 on the descriptor's bytes 0 to 7, F9 on the
buffer, F9 on the write-back's bytes 8 to 15; each sets its mark and nothing else changes. That F9 records the first
missing byte is the model's choice (log 10). -/
def Obligations.ReceiveDescriptorStops : Prop :=
  ∀ (s : State) (f : List Byte) (q : List (List Byte)), s.rxCanStep = true → s.rxFifo = f :: q →
    (rxBufferSize s.rctl < (storedBytes s.rctl f).length →
      runTurn .rxEngine s = .next (refuse (.rxFrameExceedsBuffer (storedBytes s.rctl f).length) .rxEngine s)
      ∧ ∀ d, exec (.rxd d) s = .next (refuse (.rxFrameExceedsBuffer (storedBytes s.rctl f).length) .rxEngine s))
    ∧ (∀ a, (storedBytes s.rctl f).length ≤ rxBufferSize s.rctl →
      firstMissing s.memMap (rxDescAddr s s.rdh.toNat) 8 = some a →
      runTurn .rxEngine s = .next (raise (.dmaUnmapped a .rx s.rdh.toNat) .rxEngine s))
    ∧ (∀ (d : RxDesc) (a : Addr), (storedBytes s.rctl f).length ≤ rxBufferSize s.rctl →
      firstMissing s.memMap d.bufferAddr (storedBytes s.rctl f).length = some a →
      exec (.rxd d) s = .next (raise (.dmaUnmapped a .rx s.rdh.toNat) .rxEngine s))
    ∧ (∀ (d : RxDesc) (a : Addr), (storedBytes s.rctl f).length ≤ rxBufferSize s.rctl →
      InMem s d.bufferAddr (storedBytes s.rctl f).length →
      firstMissing s.memMap (rxDescAddr s s.rdh.toNat + 8) 8 = some a →
      exec (.rxd d) s = .next (raise (.dmaUnmapped a .rx s.rdh.toNat) .rxEngine s))

/-- R327, R320: with RCTL.EN = 0, owning nothing, or with no frame queued, the receive engine has no DMA step: its turn
changes nothing, and queued frames wait. -/
def Obligations.ReceiveEngineIdle : Prop :=
  ∀ s : State, (s.rctl.getLsbD 1 = false ∨ s.rdh = s.rdt ∨ s.rxFifo = []) →
    runTurn .rxEngine s = .next s ∧ ∀ d, exec (.rxd d) s = .next s

/-- R315, R316: what becomes of a frame the wire offers, in the order of the checks. That the mark of F13 names the
wire's step (log 10), and that a multicast frame's acceptance is one draw (log 29), are the model's choices. -/
def Obligations.FrameArrival : Prop :=
  ∀ (f : List Byte) (ok : Bool) (s : State), s.Unmarked →
    let dropped (reason : DropReason) (u : State) := { u with history := u.history ++ [.rxDrop f reason] }
    let queued (u : State) :=
      if u.rxFifo.length < Config.rxFifoFrames then { u with rxFifo := u.rxFifo ++ [f] } else dropped .overrun u
    let reaches := s.rctl.getLsbD 1 = true ∧ ok = true ∧ 64 ≤ f.length ∧ f.length ≤ 1522
    let av := s.rah0.getLsbD 31
    let ra := s.rah0.extractLsb' 0 16 ++ s.ral0
    let dst := f.take 6
    (s.rctl.getLsbD 1 = false → runTurn (.wire f ok) s = .next (dropped .disabled s))
    ∧ (s.rctl.getLsbD 1 = true → ok = false → runTurn (.wire f ok) s = .next (dropped .badFcs s))
    ∧ (s.rctl.getLsbD 1 = true → ok = true → (f.length < 64 ∨ 1522 < f.length) →
        runTurn (.wire f ok) s = .next (dropped .length s))
    ∧ (reaches → av = true → s.rah0.extractLsb' 16 2 ≠ 0 →
        runTurn (.wire f ok) s = .next (refuse (.unmodelledControlField .rah0 s.rah0) .wire s))
    ∧ (reaches → av = true → s.rah0.extractLsb' 16 2 = 0 → leNat dst = ra.toNat → runTurn (.wire f ok) s = .next (queued s))
    ∧ (reaches → (av = true → s.rah0.extractLsb' 16 2 = 0 ∧ leNat dst ≠ ra.toNat) → dst = List.replicate 6 0xFF →
        runTurn (.wire f ok) s = .next (if s.rctl.getLsbD 15 then queued s else dropped .filtered s))
    ∧ (reaches → (av = true → s.rah0.extractLsb' 16 2 = 0 ∧ leNat dst ≠ ra.toNat) → dst ≠ List.replicate 6 0xFF →
        (dst.getD 0 0).getLsbD 0 = true →
        runTurn (.wire f ok) s = .next (queued { s with draws := s.draws + 1 })
        ∨ runTurn (.wire f ok) s = .next (dropped .filtered { s with draws := s.draws + 1 }))
    ∧ (reaches → (av = true → s.rah0.extractLsb' 16 2 = 0 ∧ leNat dst ≠ ra.toNat) → dst ≠ List.replicate 6 0xFF →
        (dst.getD 0 0).getLsbD 0 = false → runTurn (.wire f ok) s = .next (dropped .filtered s))

/-! ### The latch, its sources and the line -/

/-- R620: the line is a level, asserted exactly when an enabled cause is latched; a drain, an ICR write that clears the
enabled causes and an IMC write that masks them deassert it. -/
def Obligations.LineIsALevel : Prop :=
  (∀ s : State, s.line = true ↔ s.icr &&& s.mask ≠ 0)
  ∧ (∀ s t, exec .rdIcr s = .next t → t.line = false)
  ∧ (∀ s t v, s.icr &&& s.mask &&& ~~~(v &&& 0x0001FFFF#32) = 0 → exec (.wrIcr v) s = .next t → t.line = false)
  ∧ (∀ s t v, s.icr &&& s.mask &&& ~~~(v &&& 0x0001FFFF#32) = 0 → exec (.wrImc v) s = .next t → t.line = false)

/-- The steps of the receive timer, the EEPROM unit and the other-cause source (R330, R364, R405), each exactly when it is
enabled; disabled, its turn changes nothing. -/
def Obligations.UnitSteps : Prop :=
  ∀ s : State, s.Unmarked →
    (s.rxTimerArmed = true → runTurn .rxTimer s = .next { s with icr := s.icr ||| 0x80, rxTimerArmed := false })
    ∧ (s.rxTimerArmed = false → runTurn .rxTimer s = .next s)
    ∧ (s.eeBusy = true → s.eerdAddr.toNat < 64 →
        runTurn .eeprom s = .next { s with eerdData := Config.eeprom s.eerdAddr, eerdDone := true, eeBusy := false })
    ∧ (s.eeBusy = true → 64 ≤ s.eerdAddr.toNat → ∃ d : Half,
        runTurn .eeprom s = .next { s with eerdData := d, eerdDone := true, eeBusy := false, draws := s.draws + 1 })
    ∧ (s.eeBusy = false → runTurn .eeprom s = .next s)
    ∧ (∃ c : Word, c ≠ 0 ∧ c &&& ~~~0x0001FF7F#32 = 0 ∧
        runTurn .otherCause s = .next { s with icr := s.icr ||| c, draws := s.draws + 1 })

/-- R406: RXT0 is latched only by the receive timer's step, when it is armed, and by a host write of ICS with bit 7
set. -/
def Obligations.Rxt0HasTwoSources : Prop :=
  ∀ s t : State, step s = .next t → s.icr.getLsbD 7 = false → t.icr.getLsbD 7 = true →
    (s.turn = .rxTimer ∧ s.rxTimerArmed = true)
    ∨ (s.turn = .host ∧ ∃ v rest, s.code = .access ⟨32, true, 0x000C8, v⟩ :: rest ∧ v.getLsbD 7 = true)

/-- A started EEPROM read returns the word (R360, R361, R364): a START write of address k below 64, the EEPROM unit's
step, then a read of EERD gives the word in bits 31:16 with DONE = 1. -/
def Obligations.EepromReadReturnsTheWord : Prop :=
  ∀ (k : Byte) (s : State), s.Unmarked → s.eeBusy = false → k.toNat < 64 →
    ∃ t u w, exec (.wrEerd (k.setWidth 32 <<< 8 ||| 1)) s = .next t ∧ runTurn .eeprom t = .next u
      ∧ exec .rdEerd u = .next w ∧ w.word.extractLsb' 16 16 = Config.eeprom k ∧ w.word.getLsbD 4 = true
      ∧ w.word.extractLsb' 8 8 = k ∧ u.eeBusy = false

/-! ### What no device step does -/

/-- R44: a turn of a device agent changes no tail; it changes a head only as that ring's engine and only by one, modulo
N. -/
def Obligations.DeviceMovesHeadsByOneAndNoTail : Prop :=
  ∀ (τ : Turn) (s t : State), DeviceTurn τ → runTurn τ s = .next t →
    t.tdt = s.tdt ∧ t.rdt = s.rdt
    ∧ (τ ≠ .txEngine → t.tdh = s.tdh) ∧ (τ ≠ .rxEngine → t.rdh = s.rdh)
    ∧ (Legal s.tdlen → t.tdh ≠ s.tdh → t.tdh.toNat = (s.tdh.toNat + 1) % size s.tdlen)
    ∧ (Legal s.rdlen → t.rdh ≠ s.rdh → t.rdh.toNat = (s.rdh.toNat + 1) % size s.rdlen)

/-- R731: no device agent's turn changes a configuration register or the mask, the host's flags but by interrupt entry
and termination, or memory but by the two engines. -/
def Obligations.DeviceKeepsConfiguration : Prop :=
  ∀ (τ : Turn) (s t : State), DeviceTurn τ → runTurn τ s = .next t →
    (t.tctl = s.tctl ∧ t.rctl = s.rctl ∧ t.tipg = s.tipg ∧ t.ral0 = s.ral0 ∧ t.rah0 = s.rah0 ∧ t.mask = s.mask)
    ∧ (t.tdbal = s.tdbal ∧ t.tdbah = s.tdbah ∧ t.tdlen = s.tdlen ∧ t.rdbal = s.rdbal ∧ t.rdbah = s.rdbah ∧ t.rdlen = s.rdlen)
    ∧ (t.ie = s.ie ∧ t.irqUnmasked = s.irqUnmasked ∧ t.r = s.r ∧ t.results = s.results ∧ t.drv = s.drv ∧ t.memMap = s.memMap)
    ∧ (τ ≠ .terminate → t.blocked = s.blocked)
    ∧ (τ ≠ .deliver → τ ≠ .spurious → t.ctx = s.ctx ∧ t.code = s.code ∧ t.saved = s.saved)
    ∧ (τ ≠ .txEngine → τ ≠ .rxEngine → t.mem = s.mem)

/-- R247: TIPG is stored and read back, and no value of TIPG makes a difference to any device agent's turn. -/
def Obligations.TipgMakesNoDifference : Prop :=
  Keys 0x00410 .rdTipg .wrTipg
  ∧ (∀ s : State, exec .rdTipg s = .next { s with r := s.tipg.setWidth 64 })
  ∧ (∀ (s : State) (v : Word), exec (.wrTipg v) s = .next { s with tipg := v })
  ∧ ∀ (τ : Turn) (v : Word) (s t : State), DeviceTurn τ → runTurn τ s = .next t →
    runTurn τ { s with tipg := v } = .next { t with tipg := v }

/-- R641: which states are final; in one, neither the host nor any device agent but the wire and the other-cause source has
a step: their turns change nothing. -/
def Obligations.FinalStateIsIdle : Prop :=
  (∀ s : State, s.final = true ↔
    s.fault = none ∧ s.refused = none ∧ s.code = [] ∧ s.ctx = .thread ∧ s.blocked = none
    ∧ (s.tctl.getLsbD 1 = false ∨ s.tdh = s.tdt)
    ∧ (s.rxFifo = [] ∨ s.rctl.getLsbD 1 = false ∨ s.rdh = s.rdt)
    ∧ s.rxTimerArmed = false ∧ s.eeBusy = false)
  ∧ ∀ s : State, s.final = true →
    ∀ τ, τ = .host ∨ τ = .txEngine ∨ τ = .rxEngine ∨ τ = .rxTimer ∨ τ = .eeprom → runTurn τ s = .next s

/-! ### Pseudo-operations -/

/-- R210, R211, R213, R214: a pseudo-operation is the register's read, with the write of the changed value as the host's
next command; that command runs the register's write. A shift of 32 or more is refused F19 before either access, and an
offset that is no register's is stopped as in a plain access. -/
def Obligations.PseudoOpsExpand : Prop :=
  (∀ (reg : Reg) (m v : Word) (sh : Nat) (s : State), ∃ u, exec reg.readInstr s = .next u ∧
    let w : Word := u.r.setWidth 32
    let after (x : Word) := { u with code := .access ⟨32, true, reg.offset, x⟩ :: u.code }
    exec (.setBits reg.offset m) s = .next (after (w ||| m))
    ∧ exec (.clearBits reg.offset m) s = .next (after (w &&& ~~~m))
    ∧ (sh < 32 → exec (.writeField reg.offset m sh v) s = .next (after ((w &&& ~~~m) ||| ((v <<< sh) &&& m)))))
  ∧ (∀ (reg : Reg) (x : Word) (s : State) (rest : List HostCmd),
      s.code = .access ⟨32, true, reg.offset, x⟩ :: rest →
      runTurn .host s = exec (reg.writeInstr x) { s with code := rest })
  ∧ (∀ o m sh v s, 32 ≤ sh → exec (.writeField o m sh v) s = .next (refuse (.pseudoOpShiftOutOfRange sh) .host s))
  ∧ (∀ o m sh v s, (∀ reg : Reg, reg.offset ≠ o) → ∃ t, t.marked = true ∧ OnlyMarks s t
      ∧ exec (.setBits o m) s = .next t ∧ exec (.clearBits o m) s = .next t
      ∧ (sh < 32 → exec (.writeField o m sh v) s = .next t) ∧ runCode (.access ⟨32, false, o, 0⟩) s = .next t)

/-- R210, R211, R212, R213 on the registers R731 names: each pseudo-operation takes two host steps. The first changes no
register: it reads, and queues the write as the host's next command; the second leaves the register with the changed value
and the rest of the program as it was. A base or length register is written while its ring is disabled; TCTL and RCTL with a
value whose EN is 0, or on a ring that passes the enable checks. Nothing else but the value read changes. -/
def Obligations.PseudoOperationTakesTwoHostSteps : Prop :=
  ∀ (reg : Reg) (o : HostOp) (x : Word) (s : State) (rest : List HostCmd), s.code = .op o :: rest →
    PseudoOn o reg x s → WriteAdmitted reg x s →
    ∃ t u, runTurn .host s = .next t ∧ runTurn .host t = .next u
      ∧ t = { s with r := (stored reg s).setWidth 64, code := .access ⟨32, true, reg.offset, x⟩ :: rest }
      ∧ u = { withStored reg x s with r := (stored reg s).setWidth 64, code := rest }

/-! ### The host: interrupts and duties -/

/-- Interrupt entry (R622, R623, R632), refusal to nest (R634) and return (R633): delivery needs the thread context,
interrupts enabled, the line unmasked at the controller and, but for a spurious entry, asserted; entry saves the program
position, starts the bridge and changes nothing else; from the interrupt context there is no delivery; return resumes the
saved position with everything else as it is. -/
def Obligations.InterruptEntryAndReturn : Prop :=
  ∀ s : State, s.Unmarked →
    (s.ctx = .thread → s.ie = true → s.irqUnmasked = true → s.line = true →
      runTurn .deliver s = .next { s with saved := s.code, ctx := .irq, code := [.bridge] })
    ∧ (s.ctx = .thread → s.ie = true → s.irqUnmasked = true → s.line = false →
      runTurn .spurious s = .next { s with saved := s.code, ctx := .irq, code := [.bridge] })
    ∧ ((s.ctx = .irq ∨ s.ie = false ∨ s.irqUnmasked = false) →
      runTurn .deliver s = .next s ∧ runTurn .spurious s = .next s)
    ∧ (s.line = false → runTurn .deliver s = .next s)
    ∧ (s.ctx = .thread → s.saved = [] → interruptReturn (interruptEntry s) = s)
    ∧ (s.ctx = .irq → s.code = [] → runTurn .host s = .next { s with ctx := .thread, code := s.saved, saved := [] })

/-- R637: with no consumer registered the bridge's only effect is the drain: two host steps after entry the host is back
at the saved position, ICR is 0, Drain is emitted, and nothing else but the value read has changed. -/
def Obligations.BridgeWithoutConsumerOnlyDrains : Prop :=
  ∀ s : State, s.ctx = .irq → s.code = [.bridge] → s.blocked = none →
    ∃ t u, runTurn .host s = .next t ∧ runTurn .host t = .next u
      ∧ u = { s with
          icr := 0, history := s.history ++ [.drain (s.icr &&& 0x0001FFFF#32)],
          r := (s.icr &&& 0x0001FFFF#32).setWidth 64, ctx := .thread, code := s.saved, saved := [] }

/-- R271, R341: an oversized or empty packet, and a destination that is too small, are reported before any access: the
only change is the returned value and the finished command. -/
def Obligations.CallerErrorsMakeNoAccess : Prop :=
  (∀ (p : List Byte) (rest : List HostCmd) (s : State), s.code = .transmit p :: rest →
    (s.drv.txBufSize ≤ p.length ∨ p.length = 0) →
    runTurn .host s = .next { s with code := rest, results := .oversizedPacket :: s.results })
  ∧ (∀ (n : Nat) (rest : List HostCmd) (s : State), s.code = .receive n :: rest → n < 2048 →
    runTurn .host s = .next { s with code := rest, results := .bufferTooSmall :: s.results })

/-- R272: a transmit that finds its slot, or the slot after it, not done returns RingFull after one register read and one or
two memory reads, with no write, and never waits: the host steps change only the value read, the results and the program. -/
def Obligations.RingFullIsReportedWithoutWrite : Prop :=
  ∀ (s : State) (rest : List HostCmd) (p : List Byte) (a b : Addr), s.code = .transmit p :: rest →
    0 < p.length → p.length < s.drv.txBufSize →
    a = s.drv.txRing + BitVec.ofNat 64 (16 * s.tdt.toNat + 12) →
    b = s.drv.txRing + BitVec.ofNat 64 (16 * ((s.tdt.toNat + 1) % s.drv.nTx) + 12) →
    InMem s a 1 → s.ownedBufferMeets a 1 = false → InMem s b 1 → s.ownedBufferMeets b 1 = false →
    ((memGet s.mem a.toNat).getLsbD 0 = false →
      ∃ t u w, runTurn .host s = .next t ∧ runTurn .host t = .next u ∧ runTurn .host u = .next w
        ∧ w = { s with code := rest, r := w.r, results := .ringFull :: s.results })
    ∧ ((memGet s.mem a.toNat).getLsbD 0 = true → (memGet s.mem b.toNat).getLsbD 0 = false →
      ∃ t u v w, runTurn .host s = .next t ∧ runTurn .host t = .next u ∧ runTurn .host u = .next v ∧ runTurn .host v = .next w
        ∧ w = { s with code := rest, r := w.r, results := .ringFull :: s.results })

/-- R270: a transmit whose slot and the slot after it are done copies the packet into the slot's buffer, sets the
descriptor's length and command (EOP and RS), clears its status byte, advances the tail by one modulo N and returns Ok: nine
host steps, run one after the other. They change nothing else but the value read and the program. The hypotheses are what
the host's duties establish: its copies agree with the ring, and the slot and its buffer are in `MEM` and not the
device's. Where the host's list has no buffer for the slot, the buffer is a free value (the model's choice, log 37). -/
def Obligations.TransmitQueuesThePacket : Prop :=
  ∀ (s : State) (rest : List HostCmd) (p : List Byte) (d b buf : Addr), s.code = .transmit p :: rest →
    0 < p.length → p.length < s.drv.txBufSize → p.length < 65536 →
    Legal s.tdlen → s.drv.nTx = size s.tdlen → d = s.drv.txRing + BitVec.ofNat 64 (16 * s.tdt.toNat) → d.toNat % 16 = 0 →
    b = s.drv.txRing + BitVec.ofNat 64 (16 * ((s.tdt.toNat + 1) % s.drv.nTx) + 12) →
    buf = s.drv.txBuf.getD s.tdt.toNat (Config.noBuffer s.steps s.tdt.toNat) →
    InMem s d 16 → InMem s b 1 → InMem s buf p.length →
    s.ownedDescMeets d 16 = false → s.ownedBufferMeets d 16 = false → s.ownedBufferMeets b 1 = false →
    s.ownedDescMeets buf p.length = false → s.ownedBufferMeets buf p.length = false →
    (memGet s.mem (d + 12).toNat).getLsbD 0 = true → (memGet s.mem b.toNat).getLsbD 0 = true →
    ∃ t1 t2 t3 t4 t5 t6 t7 t8 t, runTurn .host s = .next t1 ∧ runTurn .host t1 = .next t2 ∧ runTurn .host t2 = .next t3
      ∧ runTurn .host t3 = .next t4 ∧ runTurn .host t4 = .next t5 ∧ runTurn .host t5 = .next t6 ∧ runTurn .host t6 = .next t7
      ∧ runTurn .host t7 = .next t8 ∧ runTurn .host t8 = .next t
      ∧ t.results = .ok :: s.results ∧ t.tdt.toNat = (s.tdt.toNat + 1) % size s.tdlen
      ∧ (∀ x : Addr, memGet t.mem x.toNat =
          if x = d + 12 then 0 else if x = d + 11 then 0x09
          else if Inside x (d + 8) 2 then BitVec.ofNat 8 (p.length / 256 ^ (x - (d + 8)).toNat)
          else if Inside x buf p.length then p.getD (x - buf).toNat 0 else memGet s.mem x.toNat)
      ∧ t = { s with mem := t.mem, tdt := t.tdt, r := t.r, results := t.results, code := rest }

/-- R342, and R343's answer: a receive on a ring whose next slot has DD clear returns RingEmpty after one register read and
one memory read, with no write; `isEmpty` answers whether DD is clear after the same two reads. The three host steps change
only the value read, the results and the program. -/
def Obligations.EmptyRingIsReportedWithoutWrite : Prop :=
  ∀ (s : State) (rest : List HostCmd) (n : Nat) (a : Addr),
    a = s.drv.rxRing + BitVec.ofNat 64 (16 * ((s.rdt.toNat + 1) % s.drv.nRx) + 12) →
    InMem s a 1 → s.ownedBufferMeets a 1 = false →
    (s.code = .receive n :: rest → 2048 ≤ n → (memGet s.mem a.toNat).getLsbD 0 = false →
      ∃ t u w, runTurn .host s = .next t ∧ runTurn .host t = .next u ∧ runTurn .host u = .next w
        ∧ w = { s with code := rest, r := w.r, results := .ringEmpty :: s.results })
    ∧ (s.code = .isEmpty :: rest →
      ∃ t u w, runTurn .host s = .next t ∧ runTurn .host t = .next u ∧ runTurn .host u = .next w
        ∧ w = { s with code := rest, r := w.r, results := .empty (!(memGet s.mem a.toNat).getLsbD 0) :: s.results })

/-- R340, R344: a receive whose slot has DD set returns the reported length and that many bytes of the slot's buffer, clears
DD, and advances the tail by exactly one, modulo N: seven host steps, run one after the other. They change nothing else but
the value read and the program. The hypotheses are what the host's duties establish: its copies agree with the ring, the
slot and its buffer are in `MEM` and not the device's. Where the host's list has no buffer for the slot, the buffer is a
free value (the model's choice, log 37). -/
def Obligations.ReceiveReturnsTheFrame : Prop :=
  ∀ (s : State) (rest : List HostCmd) (n slot length : Nat) (d buf : Addr), s.code = .receive n :: rest → 2048 ≤ n →
    Legal s.rdlen → s.drv.nRx = size s.rdlen → slot = (s.rdt.toNat + 1) % s.drv.nRx →
    d = s.drv.rxRing + BitVec.ofNat 64 (16 * slot) → d.toNat % 16 = 0 → InMem s d 16 →
    s.ownedBufferMeets (d + 12) 1 = false → s.ownedBufferMeets (d + 8) 2 = false → s.ownedDescMeets (d + 12) 1 = false →
    (memGet s.mem (d + 12).toNat).getLsbD 0 = true → length = leNat (readBytes s.mem (d + 8) 2) →
    buf = s.drv.rxBuf.getD slot (Config.noBuffer s.steps slot) → InMem s buf length → s.ownedBufferMeets buf length = false →
    ∃ t1 t2 t3 t4 t5 t6 t, runTurn .host s = .next t1 ∧ runTurn .host t1 = .next t2 ∧ runTurn .host t2 = .next t3
      ∧ runTurn .host t3 = .next t4 ∧ runTurn .host t4 = .next t5 ∧ runTurn .host t5 = .next t6 ∧ runTurn .host t6 = .next t
      ∧ t.results = .received (BitVec.ofNat 16 length) (readBytes s.mem buf length) :: s.results
      ∧ t.rdt.toNat = (s.rdt.toNat + 1) % size s.rdlen
      ∧ memGet t.mem (d + 12).toNat = 0 ∧ (∀ x : Addr, x ≠ d + 12 → memGet t.mem x.toNat = memGet s.mem x.toNat)
      ∧ t = { s with mem := t.mem, rdt := t.rdt, r := t.r, results := t.results, code := rest }

/-- R145: the station address of EEPROM words w0, w1, w2, byte by byte, and the values the filter is programmed with. -/
def Obligations.StationAddressOfWords : Prop :=
  ∀ w0 w1 w2 : Half, let sa := stationAddress w0 w1 w2
    sa = w2 ++ w1 ++ w0
    ∧ (sa.extractLsb' 0 8 = w0.extractLsb' 0 8 ∧ sa.extractLsb' 8 8 = w0.extractLsb' 8 8 ∧ sa.extractLsb' 16 8 = w1.extractLsb' 0 8
      ∧ sa.extractLsb' 24 8 = w1.extractLsb' 8 8 ∧ sa.extractLsb' 32 8 = w2.extractLsb' 0 8 ∧ sa.extractLsb' 40 8 = w2.extractLsb' 8 8)
    ∧ ralOf sa = sa.extractLsb' 0 32 ∧ rahOf sa = 1#1 ++ 0#13 ++ 0#2 ++ sa.extractLsb' 32 16

/-- R396: the test interrupt writes 0x80 to ICS: after its two host steps RXT0 is latched, whatever the mask, and the line is
asserted if the mask enables RXT0. That it runs with `ie` false and restores `ie` by a host step of its own, which is still
to come here, is the model's choice (log 33). -/
def Obligations.TestInterruptLatchesRxt0 : Prop :=
  ∀ (s : State) (rest : List HostCmd), s.code = .call .generateTestInterrupt :: rest →
    ∃ t u, runTurn .host s = .next t ∧ runTurn .host t = .next u
      ∧ u.icr = s.icr ||| 0x80 ∧ (s.mask.getLsbD 7 = true → u.line = true) ∧ u.code = .setIe s.ie :: rest
      ∧ u = { s with icr := u.icr, ie := false, code := u.code }

/-- Ring construction (R8, R714, R715): a plan within R8's bounds and placed as R714 says becomes the host's, and the writes
of its initial descriptors are the host's next commands. That any other plan does nothing (log 36), the order and the size of the
writes (log 35), and `ie` false around them (log 33), are the model's choices. -/
def Obligations.RingConstruction : Prop :=
  ∀ (s : State) (plan : Driver) (rest : List HostCmd), s.code = .call (.constructRings plan) :: rest →
    let writes (ring : Addr) (n : Nat) (buf : List Addr) (status : Byte) : List HostCmd := (List.range n).map (fun i =>
      .op (.copy (ring + BitVec.ofNat 64 (16 * i)) (leBytes 8 (buf.getD i 0).toNat ++ [0, 0, 0, 0, status, 0, 0, 0])))
    (ParamsOk plan → Placed s plan → runTurn .host s = .next { s with
      drv := plan, ie := false
      code := writes plan.txRing plan.nTx plan.txBuf 1 ++ writes plan.rxRing plan.nRx plan.rxBuf 0 ++ .setIe s.ie :: rest })
    ∧ (¬ (ParamsOk plan ∧ Placed s plan) → runTurn .host s = .next { s with code := rest })

/-! ### Fair runs -/

/-- In a fair run (R740) a started EEPROM read ends with DONE = 1 (R364) and an armed receive timer latches RXT0 (R330),
unless a fault or refusal stops the machine first; no engine's step stays enabled for ever without its head advancing
(R256, R321), and no asserted line stays undelivered for ever while the host can take it (R622). -/
def Obligations.FairRunsMakeProgress : Prop :=
  ∀ (who : Nat → Turn) (run : Nat → State), fairRun who run → ∀ n : Nat,
    ((run n).eeBusy = true → ∃ m, n ≤ m ∧ ((run m).marked = true ∨ ((run m).eeBusy = false ∧ (run m).eerdDone = true)))
    ∧ ((run n).rxTimerArmed = true → ∃ m, n ≤ m ∧ ((run m).marked = true ∨ (run m).icr.getLsbD 7 = true))
    ∧ (∃ m, n ≤ m ∧ ((run m).txCanStep = false ∨ (run (m + 1)).tdh = (run m).txRing.next (run m).tdh.toNat))
    ∧ (∃ m, n ≤ m ∧ ((run m).rxCanStep = false ∨ (run (m + 1)).rdh = (run m).rxRing.next (run m).rdh.toNat))
    ∧ (∃ m, n ≤ m ∧ ((run m).ctx = .irq ∨ (run m).ie = false ∨ (run m).irqUnmasked = false ∨ (run m).line = false
        ∨ (run m).marked = true))
end

