-- ==== Sys2Proof/Laws/Decode.lean ====
section
/-! SUPPORT. The small laws of decoding: the register offsets and the descriptor formats. -/

namespace Sys2Proof

/-- Every register is found at its offset. -/
theorem decodeOffset_offset (r : Reg) : decodeOffset r.offset = .ok r := by cases r <;> rfl

/-- The offset of the register found at an offset. -/
theorem Reg.offset_of_ofOffset {o : Nat} {r : Reg} (h : Reg.ofOffset o = some r) : o = r.offset := by
  unfold Reg.ofOffset at h
  have hf := List.find?_some h
  exact (beq_iff_eq.1 hf).symm

/-- What an accepted offset is (R142). -/
theorem decodeOffset_ok {o : Nat} {r : Reg} (h : decodeOffset o = .ok r) : o = r.offset := by
  unfold decodeOffset at h
  split at h
  · cases h
  · split at h
    · cases h
    · split at h
      · cases h
      next r' hr =>
        cases h
        exact Reg.offset_of_ofOffset hr

/-- An offset of the table is decoded to its register. -/
theorem decodeOffset_of_offsetOk {o : Nat} (h : offsetOk o = true) : ∃ r, decodeOffset o = .ok r ∧ o = r.offset := by
  obtain ⟨r, hr⟩ := Option.isSome_iff_exists.1 h
  have ho := Reg.offset_of_ofOffset hr
  exact ⟨r, ho ▸ decodeOffset_offset r, ho⟩

@[simp] theorem decodeAccess_rd (r : Reg) : decodeAccess (Access.rd r.offset) = .ok r.readInstr := by
  simp [decodeAccess, Access.rd, decodeOffset_offset]

@[simp] theorem decodeAccess_wr (r : Reg) (v : Word) : decodeAccess (Access.wr r.offset v) = .ok (r.writeInstr v) := by
  simp [decodeAccess, Access.wr, decodeOffset_offset]

/-- The low part of an appended pair. -/
theorem extract_low {n m : Nat} (hi : BitVec m) (lo : BitVec n) : (hi ++ lo).extractLsb' 0 n = lo := by
  rw [BitVec.extractLsb'_append_eq_of_add_le (by omega), BitVec.extractLsb'_eq_self]

/-- A field above the low part of an appended pair. -/
theorem extract_high {n m k w : Nat} (hi : BitVec m) (lo : BitVec n) (h : n ≤ k) :
    (hi ++ lo).extractLsb' k w = hi.extractLsb' (k - n) w := BitVec.extractLsb'_append_eq_of_le h

/-- No bit of a transmit descriptor is dropped. -/
theorem TxDesc.ofBits_toBits (d : TxDesc) : TxDesc.ofBits d.toBits = d := by
  obtain ⟨a, l, cso, cmd, sta, rsv, css, sp⟩ := d
  simp only [TxDesc.ofBits, TxDesc.toBits, TxDesc.mk.injEq]
  refine ⟨?_, ?_, ?_, ?_, ?_, ?_, ?_, ?_⟩
  · exact extract_low _ _
  · rw [extract_high (n := 64) _ _ (by omega)]; exact extract_low _ _
  · iterate 2 rw [extract_high _ _ (by omega)]
    exact extract_low _ _
  · iterate 3 rw [extract_high _ _ (by omega)]
    exact extract_low _ _
  · iterate 4 rw [extract_high _ _ (by omega)]
    exact extract_low _ _
  · iterate 5 rw [extract_high _ _ (by omega)]
    exact extract_low _ _
  · iterate 6 rw [extract_high _ _ (by omega)]
    exact extract_low _ _
  · iterate 7 rw [extract_high _ _ (by omega)]
    exact BitVec.extractLsb'_eq_self

/-- No bit of a receive descriptor is dropped. -/
theorem RxDesc.ofBits_toBits (d : RxDesc) : RxDesc.ofBits d.toBits = d := by
  obtain ⟨a, l, ck, st, er, sp⟩ := d
  simp only [RxDesc.ofBits, RxDesc.toBits, RxDesc.mk.injEq]
  refine ⟨?_, ?_, ?_, ?_, ?_, ?_⟩
  · exact extract_low _ _
  · rw [extract_high (n := 64) _ _ (by omega)]; exact extract_low _ _
  · iterate 2 rw [extract_high _ _ (by omega)]
    exact extract_low _ _
  · iterate 3 rw [extract_high _ _ (by omega)]
    exact extract_low _ _
  · iterate 4 rw [extract_high _ _ (by omega)]
    exact extract_low _ _
  · iterate 5 rw [extract_high _ _ (by omega)]
    exact BitVec.extractLsb'_eq_self

/-- A transmit descriptor's value is the value of its fields. -/
theorem TxDesc.toBits_ofBits (v : BitVec 128) : (TxDesc.ofBits v).toBits = v := by
  simp only [TxDesc.ofBits, TxDesc.toBits]
  iterate 7 rw [BitVec.extractLsb'_append_extractLsb'_eq_extractLsb' (by rfl)]
  exact BitVec.extractLsb'_eq_self

/-- A receive descriptor's value is the value of its fields. -/
theorem RxDesc.toBits_ofBits (v : BitVec 128) : (RxDesc.ofBits v).toBits = v := by
  simp only [RxDesc.ofBits, RxDesc.toBits]
  iterate 5 rw [BitVec.extractLsb'_append_extractLsb'_eq_extractLsb' (by rfl)]
  exact BitVec.extractLsb'_eq_self

end Sys2Proof
end

