-- ==== Sys2Proof/Laws/Memory.lean ====
section
/-! SUPPORT. The laws of host memory: a read after a write, other addresses, and the canonical form. -/

namespace Sys2Proof.Machine

/-! ### One byte -/

theorem memGet_memErase (m : Memory) (a b : Nat) :
    memGet (memErase m a) b = if b = a then unlistedByte else memGet m b := by
  induction m with
  | nil => simp [memErase, memGet]
  | cons c m ih =>
    obtain ⟨k, v⟩ := c
    by_cases hk : k = a
    · subst hk
      by_cases hb : b = k
      · subst hb; simpa [memErase] using ih
      · simp [memErase, memGet, ih, hb, Ne.symm hb]
    · by_cases hb : k = b
      · subst hb; simp [memErase, memGet, hk]
      · simp [memErase, memGet, hk, hb, ih]

theorem memGet_memInsert (m : Memory) (a : Nat) (v : Byte) (b : Nat) (h : ∀ c ∈ m, c.1 ≠ a) :
    memGet (memInsert m a v) b = if b = a then v else memGet m b := by
  induction m with
  | nil => simp [memInsert, memGet, eq_comm]
  | cons c m ih =>
    obtain ⟨k, w⟩ := c
    have hk : k ≠ a := h (k, w) (by simp)
    have ih := ih (fun c hc => h c (by simp [hc]))
    by_cases hlt : a < k
    · simp [memInsert, hlt, memGet, eq_comm]
    · by_cases hb : k = b
      · subst hb; simp [memInsert, hlt, memGet, hk]
      · simp [memInsert, hlt, memGet, hb, ih]

theorem memErase_keys (m : Memory) (a : Nat) : ∀ c ∈ memErase m a, c ∈ m ∧ c.1 ≠ a := by
  induction m with
  | nil => simp [memErase]
  | cons c m ih =>
    obtain ⟨k, v⟩ := c
    intro d hd
    by_cases hk : k = a
    · simp only [memErase, if_pos hk] at hd
      exact ⟨by simp [(ih d hd).1], (ih d hd).2⟩
    · simp only [memErase, if_neg hk, List.mem_cons] at hd
      rcases hd with rfl | hd
      · exact ⟨by simp, hk⟩
      · exact ⟨by simp [(ih d hd).1], (ih d hd).2⟩

/-- A byte read after a byte written. -/
theorem memGet_memSet (m : Memory) (a : Nat) (v : Byte) (b : Nat) :
    memGet (memSet m a v) b = if b = a then v else memGet m b := by
  unfold memSet
  split
  next h => rw [memGet_memErase]; simp [h]
  next =>
    rw [memGet_memInsert _ _ _ _ (fun c hc => (memErase_keys m a c hc).2), memGet_memErase]
    split <;> rfl

/-! ### The canonical form -/

/-- The canonical form as a statement about all cells: sorted, below 2^64, none equal to the unlisted byte. -/
theorem memWf_iff (m : Memory) :
    memWf m = true ↔ m.Pairwise (fun c d => c.1 < d.1) ∧ ∀ c ∈ m, c.1 < 2 ^ 64 ∧ c.2 ≠ unlistedByte := by
  induction m with
  | nil => simp [memWf]
  | cons c m ih =>
    obtain ⟨k, v⟩ := c
    cases m with
    | nil => simp [memWf]
    | cons d m =>
      obtain ⟨k', v'⟩ := d
      simp only [memWf, Bool.and_eq_true, decide_eq_true_eq, bne_iff_ne, ih]
      constructor
      · rintro ⟨⟨hlt, hv⟩, hp, hall⟩
        refine ⟨List.pairwise_cons.2 ⟨?_, hp⟩, ?_⟩
        · intro e he
          rcases List.mem_cons.1 he with rfl | he
          · exact hlt
          · exact Nat.lt_trans hlt ((List.pairwise_cons.1 hp).1 e he)
        · intro e he
          rcases List.mem_cons.1 he with rfl | he
          · exact ⟨Nat.lt_trans hlt (hall (k', v') (by simp)).1, hv⟩
          · exact hall e he
      · rintro ⟨hp, hall⟩
        exact ⟨⟨(List.pairwise_cons.1 hp).1 (k', v') (by simp), (hall (k, v) (by simp)).2⟩,
          (List.pairwise_cons.1 hp).2, fun e he => hall e (List.mem_cons_of_mem _ he)⟩

theorem memErase_sublist (m : Memory) (a : Nat) : (memErase m a).Sublist m := by
  induction m with
  | nil => simp [memErase]
  | cons c m ih =>
    obtain ⟨k, v⟩ := c
    unfold memErase
    split
    · exact ih.cons _
    · exact ih.cons_cons _

theorem memWf_memErase {m : Memory} (h : memWf m = true) (a : Nat) : memWf (memErase m a) = true := by
  rw [memWf_iff] at h ⊢
  exact ⟨h.1.sublist (memErase_sublist m a), fun c hc => h.2 c ((memErase_sublist m a).subset hc)⟩

theorem mem_memInsert (m : Memory) (a : Nat) (v : Byte) (c : Host.Cell) :
    c ∈ memInsert m a v ↔ c = (a, v) ∨ c ∈ m := by
  induction m with
  | nil => simp [memInsert]
  | cons d m ih =>
    obtain ⟨k, w⟩ := d
    by_cases hlt : a < k
    · simp [memInsert, hlt]
    · simp [memInsert, hlt, ih]; tauto

theorem memInsert_pairwise {m : Memory} (h : m.Pairwise (fun c d => c.1 < d.1)) (a : Nat) (v : Byte)
    (ha : ∀ c ∈ m, c.1 ≠ a) : (memInsert m a v).Pairwise (fun c d => c.1 < d.1) := by
  induction m with
  | nil => simp [memInsert]
  | cons c m ih =>
    obtain ⟨k, w⟩ := c
    have hk : k ≠ a := ha (k, w) (by simp)
    have hc := List.pairwise_cons.1 h
    by_cases hlt : a < k
    · simp only [memInsert, if_pos hlt]
      refine List.pairwise_cons.2 ⟨fun e he => ?_, h⟩
      rcases List.mem_cons.1 he with rfl | he
      · exact hlt
      · exact Nat.lt_trans hlt (hc.1 e he)
    · simp only [memInsert, if_neg hlt]
      refine List.pairwise_cons.2 ⟨fun e he => ?_, ih hc.2 (fun d hd => ha d (by simp [hd]))⟩
      rcases (mem_memInsert m a v e).1 he with rfl | he
      · simp only; omega
      · exact hc.1 e he

/-- A byte write keeps the canonical form. -/
theorem memWf_memSet {m : Memory} (h : memWf m = true) {a : Nat} (ha : a < 2 ^ 64) (v : Byte) :
    memWf (memSet m a v) = true := by
  unfold memSet
  split
  next => exact memWf_memErase h a
  next hv =>
    have he := memWf_memErase h a
    rw [memWf_iff] at he ⊢
    refine ⟨memInsert_pairwise he.1 a v (fun c hc => (memErase_keys m a c hc).2), fun c hc => ?_⟩
    rcases (mem_memInsert _ a v c).1 hc with rfl | hc
    · exact ⟨ha, hv⟩
    · exact he.2 c hc

/-- A write of bytes keeps the canonical form. -/
theorem memWf_writeBytes {m : Memory} (h : memWf m = true) (a : Addr) (bs : List Byte) :
    memWf (writeBytes m a bs) = true := by
  induction bs generalizing m a with
  | nil => exact h
  | cons b bs ih => exact ih (memWf_memSet h a.isLt b) _

theorem reset_memWf : memWf State.reset.mem = true := rfl

/-! ### Byte sequences -/

@[simp] theorem readBytes_length (m : Memory) (a : Addr) (n : Nat) : (readBytes m a n).length = n := by
  induction n generalizing a with
  | zero => rfl
  | succ n ih => simp [readBytes, ih]

theorem addr_succ_sub (a x : Addr) (h : x ≠ a) : (x - (a + 1)).toNat + 1 = (x - a).toNat := by
  have h' : x.toNat ≠ a.toNat := fun e => h (BitVec.eq_of_toNat_eq e)
  have hx := x.isLt
  have ha := a.isLt
  have h1 : (1 : Addr).toNat = 1 := rfl
  simp only [BitVec.toNat_sub, BitVec.toNat_add]
  omega

/-- What a byte reads as after a write of bytes at `a`: the written byte at its offset from `a`, and every address outside
`[a, a + length)` as before. -/
theorem memGet_writeBytes (m : Memory) (a : Addr) (bs : List Byte) (hl : bs.length ≤ 2 ^ 64) (x : Addr) :
    memGet (writeBytes m a bs) x.toNat =
      if (x - a).toNat < bs.length then bs.getD (x - a).toNat 0 else memGet m x.toNat := by
  induction bs generalizing m a with
  | nil => simp [writeBytes]
  | cons b bs ih =>
    have hl' : bs.length < 2 ^ 64 := by simpa using hl
    rw [writeBytes, ih _ _ (Nat.le_of_lt hl')]
    by_cases hx : x = a
    · subst hx
      have : (x - (x + 1)).toNat = 2 ^ 64 - 1 := by
        have hx := x.isLt
        have h1 : (1 : Addr).toNat = 1 := rfl
        simp only [BitVec.toNat_sub, BitVec.toNat_add]
        omega
      rw [this, if_neg (by omega), memGet_memSet]
      simp
    · have hne : x.toNat ≠ a.toNat := fun e => hx (BitVec.eq_of_toNat_eq e)
      have hs := addr_succ_sub a x hx
      rw [memGet_memSet, if_neg hne, ← hs]
      simp

/-- A read of bytes depends on the bytes read only. -/
theorem readBytes_congr (m m' : Memory) (a : Addr) (n : Nat)
    (h : ∀ k, k < n → memGet m (a + BitVec.ofNat 64 k).toNat = memGet m' (a + BitVec.ofNat 64 k).toNat) :
    readBytes m a n = readBytes m' a n := by
  induction n generalizing a with
  | zero => rfl
  | succ n ih =>
    have h0 := h 0 (Nat.succ_pos n)
    simp only [BitVec.add_zero] at h0
    simp only [readBytes, h0]
    rw [ih (a + 1)]
    intro k hk
    have := h (k + 1) (by omega)
    have e : a + 1 + BitVec.ofNat 64 k = a + BitVec.ofNat 64 (k + 1) := by
      apply BitVec.eq_of_toNat_eq
      have h1 : (1 : Addr).toNat = 1 := rfl
      simp only [BitVec.toNat_add, BitVec.toNat_ofNat]
      omega
    rw [e]; exact this

/-- Byte `k` of a read. -/
theorem readBytes_getD (m : Memory) (a : Addr) (n k : Nat) (h : k < n) :
    (readBytes m a n).getD k 0 = memGet m (a + BitVec.ofNat 64 k).toNat := by
  induction n generalizing a k with
  | zero => omega
  | succ n ih =>
    cases k with
    | zero => simp [readBytes]
    | succ k =>
      simp only [readBytes, List.getD_cons_succ]
      rw [ih _ _ (by omega)]
      congr 2
      apply BitVec.eq_of_toNat_eq
      have h1 : (1 : Addr).toNat = 1 := rfl
      simp only [BitVec.toNat_add, BitVec.toNat_ofNat]
      omega

/-- Reading back what was written. -/
theorem readBytes_writeBytes (m : Memory) (a : Addr) (bs : List Byte) (hl : bs.length ≤ 2 ^ 64) :
    readBytes (writeBytes m a bs) a bs.length = bs := by
  apply List.ext_getElem (by simp)
  intro k h1 h2
  have e := readBytes_getD (writeBytes m a bs) a bs.length k h2
  have hk : ((a + BitVec.ofNat 64 k) - a).toNat = k := by
    have := a.isLt
    simp only [BitVec.toNat_sub, BitVec.toNat_add, BitVec.toNat_ofNat]
    omega
  rw [memGet_writeBytes m a bs hl, hk, if_pos h2] at e
  simpa [List.getD_eq_getElem?_getD, h1, h2] using e

/-! ### Little-endian numbers -/

@[simp] theorem leBytes_length (n v : Nat) : (leBytes n v).length = n := by
  induction n generalizing v with
  | zero => rfl
  | succ n ih => simp [leBytes, ih]

theorem leNat_leBytes (n v : Nat) : leNat (leBytes n v) = v % 256 ^ n := by
  induction n generalizing v with
  | zero => simp [leBytes, leNat, Nat.mod_one]
  | succ n ih =>
    have hm := Nat.mod_mul (x := v) (a := 256) (b := 256 ^ n)
    rw [leBytes, leNat, ih, BitVec.toNat_ofNat, Nat.pow_succ' (n := n), hm]

theorem leNat_lt (bs : List Byte) : leNat bs < 256 ^ bs.length := by
  induction bs with
  | nil => simp [leNat]
  | cons b bs ih =>
    have := b.isLt
    simp only [leNat, List.length_cons, Nat.pow_succ]
    omega

theorem leBytes_leNat (bs : List Byte) : leBytes bs.length (leNat bs) = bs := by
  induction bs with
  | nil => rfl
  | cons b bs ih =>
    have hb := b.isLt
    have h1 : (b.toNat + 256 * leNat bs) / 256 = leNat bs := by omega
    simp only [List.length_cons, leBytes, leNat, h1, ih, List.cons.injEq, and_true]
    apply BitVec.eq_of_toNat_eq
    simp only [BitVec.toNat_ofNat]
    omega

end Sys2Proof.Machine
end

