-- ==== Sys2Proof/Laws/State.lean ====
section
/-! SUPPORT. What each named update of the state does to each field: one lemma per field per update, so that no later
proof unfolds a record update. -/

namespace Sys2Proof.Machine

variable (s : State)

/-! ### gets -/

@[simp] theorem gets_eerdAddr (v : BitVec 64) : (s.gets v).eerdAddr = s.eerdAddr := rfl
@[simp] theorem gets_eerdDone (v : BitVec 64) : (s.gets v).eerdDone = s.eerdDone := rfl
@[simp] theorem gets_eerdData (v : BitVec 64) : (s.gets v).eerdData = s.eerdData := rfl
@[simp] theorem gets_icr (v : BitVec 64) : (s.gets v).icr = s.icr := rfl
@[simp] theorem gets_mask (v : BitVec 64) : (s.gets v).mask = s.mask := rfl
@[simp] theorem gets_rctl (v : BitVec 64) : (s.gets v).rctl = s.rctl := rfl
@[simp] theorem gets_tctl (v : BitVec 64) : (s.gets v).tctl = s.tctl := rfl
@[simp] theorem gets_tipg (v : BitVec 64) : (s.gets v).tipg = s.tipg := rfl
@[simp] theorem gets_rdbal (v : BitVec 64) : (s.gets v).rdbal = s.rdbal := rfl
@[simp] theorem gets_rdbah (v : BitVec 64) : (s.gets v).rdbah = s.rdbah := rfl
@[simp] theorem gets_rdlen (v : BitVec 64) : (s.gets v).rdlen = s.rdlen := rfl
@[simp] theorem gets_rdh (v : BitVec 64) : (s.gets v).rdh = s.rdh := rfl
@[simp] theorem gets_rdt (v : BitVec 64) : (s.gets v).rdt = s.rdt := rfl
@[simp] theorem gets_tdbal (v : BitVec 64) : (s.gets v).tdbal = s.tdbal := rfl
@[simp] theorem gets_tdbah (v : BitVec 64) : (s.gets v).tdbah = s.tdbah := rfl
@[simp] theorem gets_tdlen (v : BitVec 64) : (s.gets v).tdlen = s.tdlen := rfl
@[simp] theorem gets_tdh (v : BitVec 64) : (s.gets v).tdh = s.tdh := rfl
@[simp] theorem gets_tdt (v : BitVec 64) : (s.gets v).tdt = s.tdt := rfl
@[simp] theorem gets_ral0 (v : BitVec 64) : (s.gets v).ral0 = s.ral0 := rfl
@[simp] theorem gets_rah0 (v : BitVec 64) : (s.gets v).rah0 = s.rah0 := rfl
@[simp] theorem gets_txAccum (v : BitVec 64) : (s.gets v).txAccum = s.txAccum := rfl
@[simp] theorem gets_rxFifo (v : BitVec 64) : (s.gets v).rxFifo = s.rxFifo := rfl
@[simp] theorem gets_rxTimerArmed (v : BitVec 64) : (s.gets v).rxTimerArmed = s.rxTimerArmed := rfl
@[simp] theorem gets_eeBusy (v : BitVec 64) : (s.gets v).eeBusy = s.eeBusy := rfl
@[simp] theorem gets_history (v : BitVec 64) : (s.gets v).history = s.history := rfl
@[simp] theorem gets_fault (v : BitVec 64) : (s.gets v).fault = s.fault := rfl
@[simp] theorem gets_refused (v : BitVec 64) : (s.gets v).refused = s.refused := rfl
@[simp] theorem gets_mem (v : BitVec 64) : (s.gets v).mem = s.mem := rfl
@[simp] theorem gets_memMap (v : BitVec 64) : (s.gets v).memMap = s.memMap := rfl
@[simp] theorem gets_ctx (v : BitVec 64) : (s.gets v).ctx = s.ctx := rfl
@[simp] theorem gets_ie (v : BitVec 64) : (s.gets v).ie = s.ie := rfl
@[simp] theorem gets_irqUnmasked (v : BitVec 64) : (s.gets v).irqUnmasked = s.irqUnmasked := rfl
@[simp] theorem gets_blocked (v : BitVec 64) : (s.gets v).blocked = s.blocked := rfl
@[simp] theorem gets_code (v : BitVec 64) : (s.gets v).code = s.code := rfl
@[simp] theorem gets_saved (v : BitVec 64) : (s.gets v).saved = s.saved := rfl
@[simp] theorem gets_r (v : BitVec 64) : (s.gets v).r = v := rfl
@[simp] theorem gets_results (v : BitVec 64) : (s.gets v).results = s.results := rfl
@[simp] theorem gets_drv (v : BitVec 64) : (s.gets v).drv = s.drv := rfl
@[simp] theorem gets_agenda (v : BitVec 64) : (s.gets v).agenda = s.agenda := rfl
@[simp] theorem gets_steps (v : BitVec 64) : (s.gets v).steps = s.steps := rfl
@[simp] theorem gets_draws (v : BitVec 64) : (s.gets v).draws = s.draws := rfl

/-! ### getsWord -/

@[simp] theorem getsWord_eerdAddr (v : Word) : (s.getsWord v).eerdAddr = s.eerdAddr := rfl
@[simp] theorem getsWord_eerdDone (v : Word) : (s.getsWord v).eerdDone = s.eerdDone := rfl
@[simp] theorem getsWord_eerdData (v : Word) : (s.getsWord v).eerdData = s.eerdData := rfl
@[simp] theorem getsWord_icr (v : Word) : (s.getsWord v).icr = s.icr := rfl
@[simp] theorem getsWord_mask (v : Word) : (s.getsWord v).mask = s.mask := rfl
@[simp] theorem getsWord_rctl (v : Word) : (s.getsWord v).rctl = s.rctl := rfl
@[simp] theorem getsWord_tctl (v : Word) : (s.getsWord v).tctl = s.tctl := rfl
@[simp] theorem getsWord_tipg (v : Word) : (s.getsWord v).tipg = s.tipg := rfl
@[simp] theorem getsWord_rdbal (v : Word) : (s.getsWord v).rdbal = s.rdbal := rfl
@[simp] theorem getsWord_rdbah (v : Word) : (s.getsWord v).rdbah = s.rdbah := rfl
@[simp] theorem getsWord_rdlen (v : Word) : (s.getsWord v).rdlen = s.rdlen := rfl
@[simp] theorem getsWord_rdh (v : Word) : (s.getsWord v).rdh = s.rdh := rfl
@[simp] theorem getsWord_rdt (v : Word) : (s.getsWord v).rdt = s.rdt := rfl
@[simp] theorem getsWord_tdbal (v : Word) : (s.getsWord v).tdbal = s.tdbal := rfl
@[simp] theorem getsWord_tdbah (v : Word) : (s.getsWord v).tdbah = s.tdbah := rfl
@[simp] theorem getsWord_tdlen (v : Word) : (s.getsWord v).tdlen = s.tdlen := rfl
@[simp] theorem getsWord_tdh (v : Word) : (s.getsWord v).tdh = s.tdh := rfl
@[simp] theorem getsWord_tdt (v : Word) : (s.getsWord v).tdt = s.tdt := rfl
@[simp] theorem getsWord_ral0 (v : Word) : (s.getsWord v).ral0 = s.ral0 := rfl
@[simp] theorem getsWord_rah0 (v : Word) : (s.getsWord v).rah0 = s.rah0 := rfl
@[simp] theorem getsWord_txAccum (v : Word) : (s.getsWord v).txAccum = s.txAccum := rfl
@[simp] theorem getsWord_rxFifo (v : Word) : (s.getsWord v).rxFifo = s.rxFifo := rfl
@[simp] theorem getsWord_rxTimerArmed (v : Word) : (s.getsWord v).rxTimerArmed = s.rxTimerArmed := rfl
@[simp] theorem getsWord_eeBusy (v : Word) : (s.getsWord v).eeBusy = s.eeBusy := rfl
@[simp] theorem getsWord_history (v : Word) : (s.getsWord v).history = s.history := rfl
@[simp] theorem getsWord_fault (v : Word) : (s.getsWord v).fault = s.fault := rfl
@[simp] theorem getsWord_refused (v : Word) : (s.getsWord v).refused = s.refused := rfl
@[simp] theorem getsWord_mem (v : Word) : (s.getsWord v).mem = s.mem := rfl
@[simp] theorem getsWord_memMap (v : Word) : (s.getsWord v).memMap = s.memMap := rfl
@[simp] theorem getsWord_ctx (v : Word) : (s.getsWord v).ctx = s.ctx := rfl
@[simp] theorem getsWord_ie (v : Word) : (s.getsWord v).ie = s.ie := rfl
@[simp] theorem getsWord_irqUnmasked (v : Word) : (s.getsWord v).irqUnmasked = s.irqUnmasked := rfl
@[simp] theorem getsWord_blocked (v : Word) : (s.getsWord v).blocked = s.blocked := rfl
@[simp] theorem getsWord_code (v : Word) : (s.getsWord v).code = s.code := rfl
@[simp] theorem getsWord_saved (v : Word) : (s.getsWord v).saved = s.saved := rfl
@[simp] theorem getsWord_r (v : Word) : (s.getsWord v).r = v.setWidth 64 := rfl
@[simp] theorem getsWord_results (v : Word) : (s.getsWord v).results = s.results := rfl
@[simp] theorem getsWord_drv (v : Word) : (s.getsWord v).drv = s.drv := rfl
@[simp] theorem getsWord_agenda (v : Word) : (s.getsWord v).agenda = s.agenda := rfl
@[simp] theorem getsWord_steps (v : Word) : (s.getsWord v).steps = s.steps := rfl
@[simp] theorem getsWord_draws (v : Word) : (s.getsWord v).draws = s.draws := rfl

/-! ### returns -/

@[simp] theorem returns_eerdAddr (v : Result) : (s.returns v).eerdAddr = s.eerdAddr := rfl
@[simp] theorem returns_eerdDone (v : Result) : (s.returns v).eerdDone = s.eerdDone := rfl
@[simp] theorem returns_eerdData (v : Result) : (s.returns v).eerdData = s.eerdData := rfl
@[simp] theorem returns_icr (v : Result) : (s.returns v).icr = s.icr := rfl
@[simp] theorem returns_mask (v : Result) : (s.returns v).mask = s.mask := rfl
@[simp] theorem returns_rctl (v : Result) : (s.returns v).rctl = s.rctl := rfl
@[simp] theorem returns_tctl (v : Result) : (s.returns v).tctl = s.tctl := rfl
@[simp] theorem returns_tipg (v : Result) : (s.returns v).tipg = s.tipg := rfl
@[simp] theorem returns_rdbal (v : Result) : (s.returns v).rdbal = s.rdbal := rfl
@[simp] theorem returns_rdbah (v : Result) : (s.returns v).rdbah = s.rdbah := rfl
@[simp] theorem returns_rdlen (v : Result) : (s.returns v).rdlen = s.rdlen := rfl
@[simp] theorem returns_rdh (v : Result) : (s.returns v).rdh = s.rdh := rfl
@[simp] theorem returns_rdt (v : Result) : (s.returns v).rdt = s.rdt := rfl
@[simp] theorem returns_tdbal (v : Result) : (s.returns v).tdbal = s.tdbal := rfl
@[simp] theorem returns_tdbah (v : Result) : (s.returns v).tdbah = s.tdbah := rfl
@[simp] theorem returns_tdlen (v : Result) : (s.returns v).tdlen = s.tdlen := rfl
@[simp] theorem returns_tdh (v : Result) : (s.returns v).tdh = s.tdh := rfl
@[simp] theorem returns_tdt (v : Result) : (s.returns v).tdt = s.tdt := rfl
@[simp] theorem returns_ral0 (v : Result) : (s.returns v).ral0 = s.ral0 := rfl
@[simp] theorem returns_rah0 (v : Result) : (s.returns v).rah0 = s.rah0 := rfl
@[simp] theorem returns_txAccum (v : Result) : (s.returns v).txAccum = s.txAccum := rfl
@[simp] theorem returns_rxFifo (v : Result) : (s.returns v).rxFifo = s.rxFifo := rfl
@[simp] theorem returns_rxTimerArmed (v : Result) : (s.returns v).rxTimerArmed = s.rxTimerArmed := rfl
@[simp] theorem returns_eeBusy (v : Result) : (s.returns v).eeBusy = s.eeBusy := rfl
@[simp] theorem returns_history (v : Result) : (s.returns v).history = s.history := rfl
@[simp] theorem returns_fault (v : Result) : (s.returns v).fault = s.fault := rfl
@[simp] theorem returns_refused (v : Result) : (s.returns v).refused = s.refused := rfl
@[simp] theorem returns_mem (v : Result) : (s.returns v).mem = s.mem := rfl
@[simp] theorem returns_memMap (v : Result) : (s.returns v).memMap = s.memMap := rfl
@[simp] theorem returns_ctx (v : Result) : (s.returns v).ctx = s.ctx := rfl
@[simp] theorem returns_ie (v : Result) : (s.returns v).ie = s.ie := rfl
@[simp] theorem returns_irqUnmasked (v : Result) : (s.returns v).irqUnmasked = s.irqUnmasked := rfl
@[simp] theorem returns_blocked (v : Result) : (s.returns v).blocked = s.blocked := rfl
@[simp] theorem returns_code (v : Result) : (s.returns v).code = s.code := rfl
@[simp] theorem returns_saved (v : Result) : (s.returns v).saved = s.saved := rfl
@[simp] theorem returns_r (v : Result) : (s.returns v).r = s.r := rfl
@[simp] theorem returns_results (v : Result) : (s.returns v).results = v :: s.results := rfl
@[simp] theorem returns_drv (v : Result) : (s.returns v).drv = s.drv := rfl
@[simp] theorem returns_agenda (v : Result) : (s.returns v).agenda = s.agenda := rfl
@[simp] theorem returns_steps (v : Result) : (s.returns v).steps = s.steps := rfl
@[simp] theorem returns_draws (v : Result) : (s.returns v).draws = s.draws := rfl

/-! ### pushCode -/

@[simp] theorem pushCode_eerdAddr (cs : List HostCmd) : (s.pushCode cs).eerdAddr = s.eerdAddr := rfl
@[simp] theorem pushCode_eerdDone (cs : List HostCmd) : (s.pushCode cs).eerdDone = s.eerdDone := rfl
@[simp] theorem pushCode_eerdData (cs : List HostCmd) : (s.pushCode cs).eerdData = s.eerdData := rfl
@[simp] theorem pushCode_icr (cs : List HostCmd) : (s.pushCode cs).icr = s.icr := rfl
@[simp] theorem pushCode_mask (cs : List HostCmd) : (s.pushCode cs).mask = s.mask := rfl
@[simp] theorem pushCode_rctl (cs : List HostCmd) : (s.pushCode cs).rctl = s.rctl := rfl
@[simp] theorem pushCode_tctl (cs : List HostCmd) : (s.pushCode cs).tctl = s.tctl := rfl
@[simp] theorem pushCode_tipg (cs : List HostCmd) : (s.pushCode cs).tipg = s.tipg := rfl
@[simp] theorem pushCode_rdbal (cs : List HostCmd) : (s.pushCode cs).rdbal = s.rdbal := rfl
@[simp] theorem pushCode_rdbah (cs : List HostCmd) : (s.pushCode cs).rdbah = s.rdbah := rfl
@[simp] theorem pushCode_rdlen (cs : List HostCmd) : (s.pushCode cs).rdlen = s.rdlen := rfl
@[simp] theorem pushCode_rdh (cs : List HostCmd) : (s.pushCode cs).rdh = s.rdh := rfl
@[simp] theorem pushCode_rdt (cs : List HostCmd) : (s.pushCode cs).rdt = s.rdt := rfl
@[simp] theorem pushCode_tdbal (cs : List HostCmd) : (s.pushCode cs).tdbal = s.tdbal := rfl
@[simp] theorem pushCode_tdbah (cs : List HostCmd) : (s.pushCode cs).tdbah = s.tdbah := rfl
@[simp] theorem pushCode_tdlen (cs : List HostCmd) : (s.pushCode cs).tdlen = s.tdlen := rfl
@[simp] theorem pushCode_tdh (cs : List HostCmd) : (s.pushCode cs).tdh = s.tdh := rfl
@[simp] theorem pushCode_tdt (cs : List HostCmd) : (s.pushCode cs).tdt = s.tdt := rfl
@[simp] theorem pushCode_ral0 (cs : List HostCmd) : (s.pushCode cs).ral0 = s.ral0 := rfl
@[simp] theorem pushCode_rah0 (cs : List HostCmd) : (s.pushCode cs).rah0 = s.rah0 := rfl
@[simp] theorem pushCode_txAccum (cs : List HostCmd) : (s.pushCode cs).txAccum = s.txAccum := rfl
@[simp] theorem pushCode_rxFifo (cs : List HostCmd) : (s.pushCode cs).rxFifo = s.rxFifo := rfl
@[simp] theorem pushCode_rxTimerArmed (cs : List HostCmd) : (s.pushCode cs).rxTimerArmed = s.rxTimerArmed := rfl
@[simp] theorem pushCode_eeBusy (cs : List HostCmd) : (s.pushCode cs).eeBusy = s.eeBusy := rfl
@[simp] theorem pushCode_history (cs : List HostCmd) : (s.pushCode cs).history = s.history := rfl
@[simp] theorem pushCode_fault (cs : List HostCmd) : (s.pushCode cs).fault = s.fault := rfl
@[simp] theorem pushCode_refused (cs : List HostCmd) : (s.pushCode cs).refused = s.refused := rfl
@[simp] theorem pushCode_mem (cs : List HostCmd) : (s.pushCode cs).mem = s.mem := rfl
@[simp] theorem pushCode_memMap (cs : List HostCmd) : (s.pushCode cs).memMap = s.memMap := rfl
@[simp] theorem pushCode_ctx (cs : List HostCmd) : (s.pushCode cs).ctx = s.ctx := rfl
@[simp] theorem pushCode_ie (cs : List HostCmd) : (s.pushCode cs).ie = s.ie := rfl
@[simp] theorem pushCode_irqUnmasked (cs : List HostCmd) : (s.pushCode cs).irqUnmasked = s.irqUnmasked := rfl
@[simp] theorem pushCode_blocked (cs : List HostCmd) : (s.pushCode cs).blocked = s.blocked := rfl
@[simp] theorem pushCode_code (cs : List HostCmd) : (s.pushCode cs).code = cs ++ s.code := rfl
@[simp] theorem pushCode_saved (cs : List HostCmd) : (s.pushCode cs).saved = s.saved := rfl
@[simp] theorem pushCode_r (cs : List HostCmd) : (s.pushCode cs).r = s.r := rfl
@[simp] theorem pushCode_results (cs : List HostCmd) : (s.pushCode cs).results = s.results := rfl
@[simp] theorem pushCode_drv (cs : List HostCmd) : (s.pushCode cs).drv = s.drv := rfl
@[simp] theorem pushCode_agenda (cs : List HostCmd) : (s.pushCode cs).agenda = s.agenda := rfl
@[simp] theorem pushCode_steps (cs : List HostCmd) : (s.pushCode cs).steps = s.steps := rfl
@[simp] theorem pushCode_draws (cs : List HostCmd) : (s.pushCode cs).draws = s.draws := rfl

/-! ### emit -/

@[simp] theorem emit_eerdAddr (e : Event) : (s.emit e).eerdAddr = s.eerdAddr := rfl
@[simp] theorem emit_eerdDone (e : Event) : (s.emit e).eerdDone = s.eerdDone := rfl
@[simp] theorem emit_eerdData (e : Event) : (s.emit e).eerdData = s.eerdData := rfl
@[simp] theorem emit_icr (e : Event) : (s.emit e).icr = s.icr := rfl
@[simp] theorem emit_mask (e : Event) : (s.emit e).mask = s.mask := rfl
@[simp] theorem emit_rctl (e : Event) : (s.emit e).rctl = s.rctl := rfl
@[simp] theorem emit_tctl (e : Event) : (s.emit e).tctl = s.tctl := rfl
@[simp] theorem emit_tipg (e : Event) : (s.emit e).tipg = s.tipg := rfl
@[simp] theorem emit_rdbal (e : Event) : (s.emit e).rdbal = s.rdbal := rfl
@[simp] theorem emit_rdbah (e : Event) : (s.emit e).rdbah = s.rdbah := rfl
@[simp] theorem emit_rdlen (e : Event) : (s.emit e).rdlen = s.rdlen := rfl
@[simp] theorem emit_rdh (e : Event) : (s.emit e).rdh = s.rdh := rfl
@[simp] theorem emit_rdt (e : Event) : (s.emit e).rdt = s.rdt := rfl
@[simp] theorem emit_tdbal (e : Event) : (s.emit e).tdbal = s.tdbal := rfl
@[simp] theorem emit_tdbah (e : Event) : (s.emit e).tdbah = s.tdbah := rfl
@[simp] theorem emit_tdlen (e : Event) : (s.emit e).tdlen = s.tdlen := rfl
@[simp] theorem emit_tdh (e : Event) : (s.emit e).tdh = s.tdh := rfl
@[simp] theorem emit_tdt (e : Event) : (s.emit e).tdt = s.tdt := rfl
@[simp] theorem emit_ral0 (e : Event) : (s.emit e).ral0 = s.ral0 := rfl
@[simp] theorem emit_rah0 (e : Event) : (s.emit e).rah0 = s.rah0 := rfl
@[simp] theorem emit_txAccum (e : Event) : (s.emit e).txAccum = s.txAccum := rfl
@[simp] theorem emit_rxFifo (e : Event) : (s.emit e).rxFifo = s.rxFifo := rfl
@[simp] theorem emit_rxTimerArmed (e : Event) : (s.emit e).rxTimerArmed = s.rxTimerArmed := rfl
@[simp] theorem emit_eeBusy (e : Event) : (s.emit e).eeBusy = s.eeBusy := rfl
@[simp] theorem emit_history (e : Event) : (s.emit e).history = s.history ++ [e] := rfl
@[simp] theorem emit_fault (e : Event) : (s.emit e).fault = s.fault := rfl
@[simp] theorem emit_refused (e : Event) : (s.emit e).refused = s.refused := rfl
@[simp] theorem emit_mem (e : Event) : (s.emit e).mem = s.mem := rfl
@[simp] theorem emit_memMap (e : Event) : (s.emit e).memMap = s.memMap := rfl
@[simp] theorem emit_ctx (e : Event) : (s.emit e).ctx = s.ctx := rfl
@[simp] theorem emit_ie (e : Event) : (s.emit e).ie = s.ie := rfl
@[simp] theorem emit_irqUnmasked (e : Event) : (s.emit e).irqUnmasked = s.irqUnmasked := rfl
@[simp] theorem emit_blocked (e : Event) : (s.emit e).blocked = s.blocked := rfl
@[simp] theorem emit_code (e : Event) : (s.emit e).code = s.code := rfl
@[simp] theorem emit_saved (e : Event) : (s.emit e).saved = s.saved := rfl
@[simp] theorem emit_r (e : Event) : (s.emit e).r = s.r := rfl
@[simp] theorem emit_results (e : Event) : (s.emit e).results = s.results := rfl
@[simp] theorem emit_drv (e : Event) : (s.emit e).drv = s.drv := rfl
@[simp] theorem emit_agenda (e : Event) : (s.emit e).agenda = s.agenda := rfl
@[simp] theorem emit_steps (e : Event) : (s.emit e).steps = s.steps := rfl
@[simp] theorem emit_draws (e : Event) : (s.emit e).draws = s.draws := rfl

/-! ### afterDraw -/

@[simp] theorem afterDraw_eerdAddr : (s.afterDraw).eerdAddr = s.eerdAddr := rfl
@[simp] theorem afterDraw_eerdDone : (s.afterDraw).eerdDone = s.eerdDone := rfl
@[simp] theorem afterDraw_eerdData : (s.afterDraw).eerdData = s.eerdData := rfl
@[simp] theorem afterDraw_icr : (s.afterDraw).icr = s.icr := rfl
@[simp] theorem afterDraw_mask : (s.afterDraw).mask = s.mask := rfl
@[simp] theorem afterDraw_rctl : (s.afterDraw).rctl = s.rctl := rfl
@[simp] theorem afterDraw_tctl : (s.afterDraw).tctl = s.tctl := rfl
@[simp] theorem afterDraw_tipg : (s.afterDraw).tipg = s.tipg := rfl
@[simp] theorem afterDraw_rdbal : (s.afterDraw).rdbal = s.rdbal := rfl
@[simp] theorem afterDraw_rdbah : (s.afterDraw).rdbah = s.rdbah := rfl
@[simp] theorem afterDraw_rdlen : (s.afterDraw).rdlen = s.rdlen := rfl
@[simp] theorem afterDraw_rdh : (s.afterDraw).rdh = s.rdh := rfl
@[simp] theorem afterDraw_rdt : (s.afterDraw).rdt = s.rdt := rfl
@[simp] theorem afterDraw_tdbal : (s.afterDraw).tdbal = s.tdbal := rfl
@[simp] theorem afterDraw_tdbah : (s.afterDraw).tdbah = s.tdbah := rfl
@[simp] theorem afterDraw_tdlen : (s.afterDraw).tdlen = s.tdlen := rfl
@[simp] theorem afterDraw_tdh : (s.afterDraw).tdh = s.tdh := rfl
@[simp] theorem afterDraw_tdt : (s.afterDraw).tdt = s.tdt := rfl
@[simp] theorem afterDraw_ral0 : (s.afterDraw).ral0 = s.ral0 := rfl
@[simp] theorem afterDraw_rah0 : (s.afterDraw).rah0 = s.rah0 := rfl
@[simp] theorem afterDraw_txAccum : (s.afterDraw).txAccum = s.txAccum := rfl
@[simp] theorem afterDraw_rxFifo : (s.afterDraw).rxFifo = s.rxFifo := rfl
@[simp] theorem afterDraw_rxTimerArmed : (s.afterDraw).rxTimerArmed = s.rxTimerArmed := rfl
@[simp] theorem afterDraw_eeBusy : (s.afterDraw).eeBusy = s.eeBusy := rfl
@[simp] theorem afterDraw_history : (s.afterDraw).history = s.history := rfl
@[simp] theorem afterDraw_fault : (s.afterDraw).fault = s.fault := rfl
@[simp] theorem afterDraw_refused : (s.afterDraw).refused = s.refused := rfl
@[simp] theorem afterDraw_mem : (s.afterDraw).mem = s.mem := rfl
@[simp] theorem afterDraw_memMap : (s.afterDraw).memMap = s.memMap := rfl
@[simp] theorem afterDraw_ctx : (s.afterDraw).ctx = s.ctx := rfl
@[simp] theorem afterDraw_ie : (s.afterDraw).ie = s.ie := rfl
@[simp] theorem afterDraw_irqUnmasked : (s.afterDraw).irqUnmasked = s.irqUnmasked := rfl
@[simp] theorem afterDraw_blocked : (s.afterDraw).blocked = s.blocked := rfl
@[simp] theorem afterDraw_code : (s.afterDraw).code = s.code := rfl
@[simp] theorem afterDraw_saved : (s.afterDraw).saved = s.saved := rfl
@[simp] theorem afterDraw_r : (s.afterDraw).r = s.r := rfl
@[simp] theorem afterDraw_results : (s.afterDraw).results = s.results := rfl
@[simp] theorem afterDraw_drv : (s.afterDraw).drv = s.drv := rfl
@[simp] theorem afterDraw_agenda : (s.afterDraw).agenda = s.agenda := rfl
@[simp] theorem afterDraw_steps : (s.afterDraw).steps = s.steps := rfl
@[simp] theorem afterDraw_draws : (s.afterDraw).draws = s.draws + 1 := rfl

/-! ### raise -/

@[simp] theorem raise_eerdAddr (f : Fault) (g : Agent) : (raise f g s).eerdAddr = s.eerdAddr := rfl
@[simp] theorem raise_eerdDone (f : Fault) (g : Agent) : (raise f g s).eerdDone = s.eerdDone := rfl
@[simp] theorem raise_eerdData (f : Fault) (g : Agent) : (raise f g s).eerdData = s.eerdData := rfl
@[simp] theorem raise_icr (f : Fault) (g : Agent) : (raise f g s).icr = s.icr := rfl
@[simp] theorem raise_mask (f : Fault) (g : Agent) : (raise f g s).mask = s.mask := rfl
@[simp] theorem raise_rctl (f : Fault) (g : Agent) : (raise f g s).rctl = s.rctl := rfl
@[simp] theorem raise_tctl (f : Fault) (g : Agent) : (raise f g s).tctl = s.tctl := rfl
@[simp] theorem raise_tipg (f : Fault) (g : Agent) : (raise f g s).tipg = s.tipg := rfl
@[simp] theorem raise_rdbal (f : Fault) (g : Agent) : (raise f g s).rdbal = s.rdbal := rfl
@[simp] theorem raise_rdbah (f : Fault) (g : Agent) : (raise f g s).rdbah = s.rdbah := rfl
@[simp] theorem raise_rdlen (f : Fault) (g : Agent) : (raise f g s).rdlen = s.rdlen := rfl
@[simp] theorem raise_rdh (f : Fault) (g : Agent) : (raise f g s).rdh = s.rdh := rfl
@[simp] theorem raise_rdt (f : Fault) (g : Agent) : (raise f g s).rdt = s.rdt := rfl
@[simp] theorem raise_tdbal (f : Fault) (g : Agent) : (raise f g s).tdbal = s.tdbal := rfl
@[simp] theorem raise_tdbah (f : Fault) (g : Agent) : (raise f g s).tdbah = s.tdbah := rfl
@[simp] theorem raise_tdlen (f : Fault) (g : Agent) : (raise f g s).tdlen = s.tdlen := rfl
@[simp] theorem raise_tdh (f : Fault) (g : Agent) : (raise f g s).tdh = s.tdh := rfl
@[simp] theorem raise_tdt (f : Fault) (g : Agent) : (raise f g s).tdt = s.tdt := rfl
@[simp] theorem raise_ral0 (f : Fault) (g : Agent) : (raise f g s).ral0 = s.ral0 := rfl
@[simp] theorem raise_rah0 (f : Fault) (g : Agent) : (raise f g s).rah0 = s.rah0 := rfl
@[simp] theorem raise_txAccum (f : Fault) (g : Agent) : (raise f g s).txAccum = s.txAccum := rfl
@[simp] theorem raise_rxFifo (f : Fault) (g : Agent) : (raise f g s).rxFifo = s.rxFifo := rfl
@[simp] theorem raise_rxTimerArmed (f : Fault) (g : Agent) : (raise f g s).rxTimerArmed = s.rxTimerArmed := rfl
@[simp] theorem raise_eeBusy (f : Fault) (g : Agent) : (raise f g s).eeBusy = s.eeBusy := rfl
@[simp] theorem raise_history (f : Fault) (g : Agent) : (raise f g s).history = s.history := rfl
@[simp] theorem raise_fault (f : Fault) (g : Agent) : (raise f g s).fault = s.fault.or (some ⟨f, g, s.steps⟩) := rfl
@[simp] theorem raise_refused (f : Fault) (g : Agent) : (raise f g s).refused = s.refused := rfl
@[simp] theorem raise_mem (f : Fault) (g : Agent) : (raise f g s).mem = s.mem := rfl
@[simp] theorem raise_memMap (f : Fault) (g : Agent) : (raise f g s).memMap = s.memMap := rfl
@[simp] theorem raise_ctx (f : Fault) (g : Agent) : (raise f g s).ctx = s.ctx := rfl
@[simp] theorem raise_ie (f : Fault) (g : Agent) : (raise f g s).ie = s.ie := rfl
@[simp] theorem raise_irqUnmasked (f : Fault) (g : Agent) : (raise f g s).irqUnmasked = s.irqUnmasked := rfl
@[simp] theorem raise_blocked (f : Fault) (g : Agent) : (raise f g s).blocked = s.blocked := rfl
@[simp] theorem raise_code (f : Fault) (g : Agent) : (raise f g s).code = s.code := rfl
@[simp] theorem raise_saved (f : Fault) (g : Agent) : (raise f g s).saved = s.saved := rfl
@[simp] theorem raise_r (f : Fault) (g : Agent) : (raise f g s).r = s.r := rfl
@[simp] theorem raise_results (f : Fault) (g : Agent) : (raise f g s).results = s.results := rfl
@[simp] theorem raise_drv (f : Fault) (g : Agent) : (raise f g s).drv = s.drv := rfl
@[simp] theorem raise_agenda (f : Fault) (g : Agent) : (raise f g s).agenda = s.agenda := rfl
@[simp] theorem raise_steps (f : Fault) (g : Agent) : (raise f g s).steps = s.steps := rfl
@[simp] theorem raise_draws (f : Fault) (g : Agent) : (raise f g s).draws = s.draws := rfl

/-! ### refuse -/

@[simp] theorem refuse_eerdAddr (f : Refusal) (g : Agent) : (refuse f g s).eerdAddr = s.eerdAddr := rfl
@[simp] theorem refuse_eerdDone (f : Refusal) (g : Agent) : (refuse f g s).eerdDone = s.eerdDone := rfl
@[simp] theorem refuse_eerdData (f : Refusal) (g : Agent) : (refuse f g s).eerdData = s.eerdData := rfl
@[simp] theorem refuse_icr (f : Refusal) (g : Agent) : (refuse f g s).icr = s.icr := rfl
@[simp] theorem refuse_mask (f : Refusal) (g : Agent) : (refuse f g s).mask = s.mask := rfl
@[simp] theorem refuse_rctl (f : Refusal) (g : Agent) : (refuse f g s).rctl = s.rctl := rfl
@[simp] theorem refuse_tctl (f : Refusal) (g : Agent) : (refuse f g s).tctl = s.tctl := rfl
@[simp] theorem refuse_tipg (f : Refusal) (g : Agent) : (refuse f g s).tipg = s.tipg := rfl
@[simp] theorem refuse_rdbal (f : Refusal) (g : Agent) : (refuse f g s).rdbal = s.rdbal := rfl
@[simp] theorem refuse_rdbah (f : Refusal) (g : Agent) : (refuse f g s).rdbah = s.rdbah := rfl
@[simp] theorem refuse_rdlen (f : Refusal) (g : Agent) : (refuse f g s).rdlen = s.rdlen := rfl
@[simp] theorem refuse_rdh (f : Refusal) (g : Agent) : (refuse f g s).rdh = s.rdh := rfl
@[simp] theorem refuse_rdt (f : Refusal) (g : Agent) : (refuse f g s).rdt = s.rdt := rfl
@[simp] theorem refuse_tdbal (f : Refusal) (g : Agent) : (refuse f g s).tdbal = s.tdbal := rfl
@[simp] theorem refuse_tdbah (f : Refusal) (g : Agent) : (refuse f g s).tdbah = s.tdbah := rfl
@[simp] theorem refuse_tdlen (f : Refusal) (g : Agent) : (refuse f g s).tdlen = s.tdlen := rfl
@[simp] theorem refuse_tdh (f : Refusal) (g : Agent) : (refuse f g s).tdh = s.tdh := rfl
@[simp] theorem refuse_tdt (f : Refusal) (g : Agent) : (refuse f g s).tdt = s.tdt := rfl
@[simp] theorem refuse_ral0 (f : Refusal) (g : Agent) : (refuse f g s).ral0 = s.ral0 := rfl
@[simp] theorem refuse_rah0 (f : Refusal) (g : Agent) : (refuse f g s).rah0 = s.rah0 := rfl
@[simp] theorem refuse_txAccum (f : Refusal) (g : Agent) : (refuse f g s).txAccum = s.txAccum := rfl
@[simp] theorem refuse_rxFifo (f : Refusal) (g : Agent) : (refuse f g s).rxFifo = s.rxFifo := rfl
@[simp] theorem refuse_rxTimerArmed (f : Refusal) (g : Agent) : (refuse f g s).rxTimerArmed = s.rxTimerArmed := rfl
@[simp] theorem refuse_eeBusy (f : Refusal) (g : Agent) : (refuse f g s).eeBusy = s.eeBusy := rfl
@[simp] theorem refuse_history (f : Refusal) (g : Agent) : (refuse f g s).history = s.history := rfl
@[simp] theorem refuse_fault (f : Refusal) (g : Agent) : (refuse f g s).fault = s.fault := rfl
@[simp] theorem refuse_refused (f : Refusal) (g : Agent) : (refuse f g s).refused = s.refused.or (some ⟨f, g, s.steps⟩) := rfl
@[simp] theorem refuse_mem (f : Refusal) (g : Agent) : (refuse f g s).mem = s.mem := rfl
@[simp] theorem refuse_memMap (f : Refusal) (g : Agent) : (refuse f g s).memMap = s.memMap := rfl
@[simp] theorem refuse_ctx (f : Refusal) (g : Agent) : (refuse f g s).ctx = s.ctx := rfl
@[simp] theorem refuse_ie (f : Refusal) (g : Agent) : (refuse f g s).ie = s.ie := rfl
@[simp] theorem refuse_irqUnmasked (f : Refusal) (g : Agent) : (refuse f g s).irqUnmasked = s.irqUnmasked := rfl
@[simp] theorem refuse_blocked (f : Refusal) (g : Agent) : (refuse f g s).blocked = s.blocked := rfl
@[simp] theorem refuse_code (f : Refusal) (g : Agent) : (refuse f g s).code = s.code := rfl
@[simp] theorem refuse_saved (f : Refusal) (g : Agent) : (refuse f g s).saved = s.saved := rfl
@[simp] theorem refuse_r (f : Refusal) (g : Agent) : (refuse f g s).r = s.r := rfl
@[simp] theorem refuse_results (f : Refusal) (g : Agent) : (refuse f g s).results = s.results := rfl
@[simp] theorem refuse_drv (f : Refusal) (g : Agent) : (refuse f g s).drv = s.drv := rfl
@[simp] theorem refuse_agenda (f : Refusal) (g : Agent) : (refuse f g s).agenda = s.agenda := rfl
@[simp] theorem refuse_steps (f : Refusal) (g : Agent) : (refuse f g s).steps = s.steps := rfl
@[simp] theorem refuse_draws (f : Refusal) (g : Agent) : (refuse f g s).draws = s.draws := rfl

/-! ### interruptEntry -/

@[simp] theorem interruptEntry_eerdAddr : (interruptEntry s).eerdAddr = s.eerdAddr := rfl
@[simp] theorem interruptEntry_eerdDone : (interruptEntry s).eerdDone = s.eerdDone := rfl
@[simp] theorem interruptEntry_eerdData : (interruptEntry s).eerdData = s.eerdData := rfl
@[simp] theorem interruptEntry_icr : (interruptEntry s).icr = s.icr := rfl
@[simp] theorem interruptEntry_mask : (interruptEntry s).mask = s.mask := rfl
@[simp] theorem interruptEntry_rctl : (interruptEntry s).rctl = s.rctl := rfl
@[simp] theorem interruptEntry_tctl : (interruptEntry s).tctl = s.tctl := rfl
@[simp] theorem interruptEntry_tipg : (interruptEntry s).tipg = s.tipg := rfl
@[simp] theorem interruptEntry_rdbal : (interruptEntry s).rdbal = s.rdbal := rfl
@[simp] theorem interruptEntry_rdbah : (interruptEntry s).rdbah = s.rdbah := rfl
@[simp] theorem interruptEntry_rdlen : (interruptEntry s).rdlen = s.rdlen := rfl
@[simp] theorem interruptEntry_rdh : (interruptEntry s).rdh = s.rdh := rfl
@[simp] theorem interruptEntry_rdt : (interruptEntry s).rdt = s.rdt := rfl
@[simp] theorem interruptEntry_tdbal : (interruptEntry s).tdbal = s.tdbal := rfl
@[simp] theorem interruptEntry_tdbah : (interruptEntry s).tdbah = s.tdbah := rfl
@[simp] theorem interruptEntry_tdlen : (interruptEntry s).tdlen = s.tdlen := rfl
@[simp] theorem interruptEntry_tdh : (interruptEntry s).tdh = s.tdh := rfl
@[simp] theorem interruptEntry_tdt : (interruptEntry s).tdt = s.tdt := rfl
@[simp] theorem interruptEntry_ral0 : (interruptEntry s).ral0 = s.ral0 := rfl
@[simp] theorem interruptEntry_rah0 : (interruptEntry s).rah0 = s.rah0 := rfl
@[simp] theorem interruptEntry_txAccum : (interruptEntry s).txAccum = s.txAccum := rfl
@[simp] theorem interruptEntry_rxFifo : (interruptEntry s).rxFifo = s.rxFifo := rfl
@[simp] theorem interruptEntry_rxTimerArmed : (interruptEntry s).rxTimerArmed = s.rxTimerArmed := rfl
@[simp] theorem interruptEntry_eeBusy : (interruptEntry s).eeBusy = s.eeBusy := rfl
@[simp] theorem interruptEntry_history : (interruptEntry s).history = s.history := rfl
@[simp] theorem interruptEntry_fault : (interruptEntry s).fault = s.fault := rfl
@[simp] theorem interruptEntry_refused : (interruptEntry s).refused = s.refused := rfl
@[simp] theorem interruptEntry_mem : (interruptEntry s).mem = s.mem := rfl
@[simp] theorem interruptEntry_memMap : (interruptEntry s).memMap = s.memMap := rfl
@[simp] theorem interruptEntry_ctx : (interruptEntry s).ctx = .irq := rfl
@[simp] theorem interruptEntry_ie : (interruptEntry s).ie = s.ie := rfl
@[simp] theorem interruptEntry_irqUnmasked : (interruptEntry s).irqUnmasked = s.irqUnmasked := rfl
@[simp] theorem interruptEntry_blocked : (interruptEntry s).blocked = s.blocked := rfl
@[simp] theorem interruptEntry_code : (interruptEntry s).code = [.bridge] := rfl
@[simp] theorem interruptEntry_saved : (interruptEntry s).saved = s.code := rfl
@[simp] theorem interruptEntry_r : (interruptEntry s).r = s.r := rfl
@[simp] theorem interruptEntry_results : (interruptEntry s).results = s.results := rfl
@[simp] theorem interruptEntry_drv : (interruptEntry s).drv = s.drv := rfl
@[simp] theorem interruptEntry_agenda : (interruptEntry s).agenda = s.agenda := rfl
@[simp] theorem interruptEntry_steps : (interruptEntry s).steps = s.steps := rfl
@[simp] theorem interruptEntry_draws : (interruptEntry s).draws = s.draws := rfl

/-! ### interruptReturn -/

@[simp] theorem interruptReturn_eerdAddr : (interruptReturn s).eerdAddr = s.eerdAddr := rfl
@[simp] theorem interruptReturn_eerdDone : (interruptReturn s).eerdDone = s.eerdDone := rfl
@[simp] theorem interruptReturn_eerdData : (interruptReturn s).eerdData = s.eerdData := rfl
@[simp] theorem interruptReturn_icr : (interruptReturn s).icr = s.icr := rfl
@[simp] theorem interruptReturn_mask : (interruptReturn s).mask = s.mask := rfl
@[simp] theorem interruptReturn_rctl : (interruptReturn s).rctl = s.rctl := rfl
@[simp] theorem interruptReturn_tctl : (interruptReturn s).tctl = s.tctl := rfl
@[simp] theorem interruptReturn_tipg : (interruptReturn s).tipg = s.tipg := rfl
@[simp] theorem interruptReturn_rdbal : (interruptReturn s).rdbal = s.rdbal := rfl
@[simp] theorem interruptReturn_rdbah : (interruptReturn s).rdbah = s.rdbah := rfl
@[simp] theorem interruptReturn_rdlen : (interruptReturn s).rdlen = s.rdlen := rfl
@[simp] theorem interruptReturn_rdh : (interruptReturn s).rdh = s.rdh := rfl
@[simp] theorem interruptReturn_rdt : (interruptReturn s).rdt = s.rdt := rfl
@[simp] theorem interruptReturn_tdbal : (interruptReturn s).tdbal = s.tdbal := rfl
@[simp] theorem interruptReturn_tdbah : (interruptReturn s).tdbah = s.tdbah := rfl
@[simp] theorem interruptReturn_tdlen : (interruptReturn s).tdlen = s.tdlen := rfl
@[simp] theorem interruptReturn_tdh : (interruptReturn s).tdh = s.tdh := rfl
@[simp] theorem interruptReturn_tdt : (interruptReturn s).tdt = s.tdt := rfl
@[simp] theorem interruptReturn_ral0 : (interruptReturn s).ral0 = s.ral0 := rfl
@[simp] theorem interruptReturn_rah0 : (interruptReturn s).rah0 = s.rah0 := rfl
@[simp] theorem interruptReturn_txAccum : (interruptReturn s).txAccum = s.txAccum := rfl
@[simp] theorem interruptReturn_rxFifo : (interruptReturn s).rxFifo = s.rxFifo := rfl
@[simp] theorem interruptReturn_rxTimerArmed : (interruptReturn s).rxTimerArmed = s.rxTimerArmed := rfl
@[simp] theorem interruptReturn_eeBusy : (interruptReturn s).eeBusy = s.eeBusy := rfl
@[simp] theorem interruptReturn_history : (interruptReturn s).history = s.history := rfl
@[simp] theorem interruptReturn_fault : (interruptReturn s).fault = s.fault := rfl
@[simp] theorem interruptReturn_refused : (interruptReturn s).refused = s.refused := rfl
@[simp] theorem interruptReturn_mem : (interruptReturn s).mem = s.mem := rfl
@[simp] theorem interruptReturn_memMap : (interruptReturn s).memMap = s.memMap := rfl
@[simp] theorem interruptReturn_ctx : (interruptReturn s).ctx = .thread := rfl
@[simp] theorem interruptReturn_ie : (interruptReturn s).ie = s.ie := rfl
@[simp] theorem interruptReturn_irqUnmasked : (interruptReturn s).irqUnmasked = s.irqUnmasked := rfl
@[simp] theorem interruptReturn_blocked : (interruptReturn s).blocked = s.blocked := rfl
@[simp] theorem interruptReturn_code : (interruptReturn s).code = s.saved := rfl
@[simp] theorem interruptReturn_saved : (interruptReturn s).saved = [] := rfl
@[simp] theorem interruptReturn_r : (interruptReturn s).r = s.r := rfl
@[simp] theorem interruptReturn_results : (interruptReturn s).results = s.results := rfl
@[simp] theorem interruptReturn_drv : (interruptReturn s).drv = s.drv := rfl
@[simp] theorem interruptReturn_agenda : (interruptReturn s).agenda = s.agenda := rfl
@[simp] theorem interruptReturn_steps : (interruptReturn s).steps = s.steps := rfl
@[simp] theorem interruptReturn_draws : (interruptReturn s).draws = s.draws := rfl

/-! ### begin -/

@[simp] theorem begin_eerdAddr : (s.begin).eerdAddr = s.eerdAddr := rfl
@[simp] theorem begin_eerdDone : (s.begin).eerdDone = s.eerdDone := rfl
@[simp] theorem begin_eerdData : (s.begin).eerdData = s.eerdData := rfl
@[simp] theorem begin_icr : (s.begin).icr = s.icr := rfl
@[simp] theorem begin_mask : (s.begin).mask = s.mask := rfl
@[simp] theorem begin_rctl : (s.begin).rctl = s.rctl := rfl
@[simp] theorem begin_tctl : (s.begin).tctl = s.tctl := rfl
@[simp] theorem begin_tipg : (s.begin).tipg = s.tipg := rfl
@[simp] theorem begin_rdbal : (s.begin).rdbal = s.rdbal := rfl
@[simp] theorem begin_rdbah : (s.begin).rdbah = s.rdbah := rfl
@[simp] theorem begin_rdlen : (s.begin).rdlen = s.rdlen := rfl
@[simp] theorem begin_rdh : (s.begin).rdh = s.rdh := rfl
@[simp] theorem begin_rdt : (s.begin).rdt = s.rdt := rfl
@[simp] theorem begin_tdbal : (s.begin).tdbal = s.tdbal := rfl
@[simp] theorem begin_tdbah : (s.begin).tdbah = s.tdbah := rfl
@[simp] theorem begin_tdlen : (s.begin).tdlen = s.tdlen := rfl
@[simp] theorem begin_tdh : (s.begin).tdh = s.tdh := rfl
@[simp] theorem begin_tdt : (s.begin).tdt = s.tdt := rfl
@[simp] theorem begin_ral0 : (s.begin).ral0 = s.ral0 := rfl
@[simp] theorem begin_rah0 : (s.begin).rah0 = s.rah0 := rfl
@[simp] theorem begin_txAccum : (s.begin).txAccum = s.txAccum := rfl
@[simp] theorem begin_rxFifo : (s.begin).rxFifo = s.rxFifo := rfl
@[simp] theorem begin_rxTimerArmed : (s.begin).rxTimerArmed = s.rxTimerArmed := rfl
@[simp] theorem begin_eeBusy : (s.begin).eeBusy = s.eeBusy := rfl
@[simp] theorem begin_history : (s.begin).history = s.history := rfl
@[simp] theorem begin_fault : (s.begin).fault = s.fault := rfl
@[simp] theorem begin_refused : (s.begin).refused = s.refused := rfl
@[simp] theorem begin_mem : (s.begin).mem = s.mem := rfl
@[simp] theorem begin_memMap : (s.begin).memMap = s.memMap := rfl
@[simp] theorem begin_ctx : (s.begin).ctx = s.ctx := rfl
@[simp] theorem begin_ie : (s.begin).ie = s.ie := rfl
@[simp] theorem begin_irqUnmasked : (s.begin).irqUnmasked = s.irqUnmasked := rfl
@[simp] theorem begin_blocked : (s.begin).blocked = s.blocked := rfl
@[simp] theorem begin_code : (s.begin).code = s.code := rfl
@[simp] theorem begin_saved : (s.begin).saved = s.saved := rfl
@[simp] theorem begin_r : (s.begin).r = s.r := rfl
@[simp] theorem begin_results : (s.begin).results = s.results := rfl
@[simp] theorem begin_drv : (s.begin).drv = s.drv := rfl
@[simp] theorem begin_agenda : (s.begin).agenda = s.agenda.tail := rfl
@[simp] theorem begin_steps : (s.begin).steps = s.steps + 1 := rfl
@[simp] theorem begin_draws : (s.begin).draws = s.draws := rfl

end Sys2Proof.Machine
end

