-- ==== Sys2Proof/Laws/Ops.lean ====
section
/-! SUPPORT. One lemma per shared operation that says everything it can do; the provers cite these instead of unfolding
the operations. -/

namespace Sys2Proof.Machine

/-! ### Marks -/

/-- Being marked, in terms of the two marks (R603). -/
theorem marked_iff (s : State) : s.marked = true ↔ s.fault ≠ none ∨ s.refused ≠ none := by
  simp [State.marked, Option.isSome_iff_ne_none]

theorem unmarked_iff (s : State) : s.marked = false ↔ s.fault = none ∧ s.refused = none := by
  simp [State.marked]

@[simp] theorem raise_marked (f : Fault) (g : Agent) (s : State) : (raise f g s).marked = true := by
  simp [State.marked]

@[simp] theorem refuse_marked (f : Refusal) (g : Agent) (s : State) : (refuse f g s).marked = true := by
  simp [State.marked]

/-- A rejected access raises one of F1 and F2 or refuses with one of F3 and F4 (R142). -/
theorem rejectAccess_cases (e : AccessReject) (s : State) :
    (∃ f, rejectAccess e s = raise f .host s) ∨ (∃ f, rejectAccess e s = refuse f .host s) := by
  cases e
  · exact .inr ⟨_, rfl⟩
  · exact .inl ⟨_, rfl⟩
  · exact .inl ⟨_, rfl⟩
  · exact .inr ⟨_, rfl⟩

/-! ### Guards of writes -/

/-- What a write guarded by EN = 0 can do. -/
theorem unlessEnabled_cases {en : Bool} {reg : Reg} {s : State} {w : Out} {t : State}
    (h : unlessEnabled en reg s w = .next t) :
    (en = true ∧ t = raise (.configWhileEnabled reg) .host s) ∨ (en = false ∧ w = .next t) := by
  unfold unlessEnabled at h
  split at h
  next he => exact .inl ⟨he, (Host.Outcome.next.inj h).symm⟩
  next he => exact .inr ⟨by simpa using he, h⟩

/-- What a cursor write can do. -/
theorem cursorWrite_cases {len : Word} {reg : Reg} {v : Word} {s u t : State}
    (h : cursorWrite len reg v s u = .next t) :
    (cursorBad len v = true ∧ t = raise (.cursorOutOfRange reg v) .host s) ∨ (cursorBad len v = false ∧ t = u) := by
  unfold cursorWrite at h
  split at h
  next he => exact .inl ⟨he, (Host.Outcome.next.inj h).symm⟩
  next he => exact .inr ⟨by simpa using he, (Host.Outcome.next.inj h).symm⟩

/-- What an enable check can do: a mark, or nothing, and nothing only on a well-programmed ring with no refused-if-set
bit. -/
theorem enableChecks_cases (v : RingView) (bal : Word) (hd tl ctl : Reg) (x ref : Word) (s : State) :
    (∃ f, enableChecks v bal hd tl ctl x ref s = raise f .host s)
    ∨ (∃ f, enableChecks v bal hd tl ctl x ref s = refuse f .host s)
    ∨ (enableChecks v bal hd tl ctl x ref s = s ∧ lenLegal v.len = true ∧ bal.extractLsb' 0 4 = 0
        ∧ v.head.toNat < v.size ∧ v.tail.toNat < v.size ∧ x &&& ref = 0) := by
  unfold enableChecks
  split
  · exact .inl ⟨_, rfl⟩
  · split
    · exact .inl ⟨_, rfl⟩
    · split
      · exact .inl ⟨_, rfl⟩
      · split
        · exact .inl ⟨_, rfl⟩
        · split
          · exact .inr (.inl ⟨_, rfl⟩)
          · rename_i h1 h2 h3 h4 h5
            refine .inr (.inr ⟨rfl, ?_, ?_, ?_, ?_, ?_⟩)
            · simpa using h1
            · simpa using h2
            · omega
            · omega
            · simpa using h5

/-! ### Host memory accesses -/

/-- What a host read of bytes can do (R206). -/
theorem hostReads_cases {al : Bool} {a : Addr} {n : Nat} {s : State} {k : List Byte → State} {t : State}
    (h : hostReads al a n s k = .next t) :
    t = refuse (.hostAccessUnmapped a) .host s ∨ t = raise (.ownershipRace a) .host s
      ∨ (t = k (readBytes s.mem a n) ∧ al = true ∧ firstMissing s.memMap a n = none ∧ s.ownedBufferMeets a n = false) := by
  unfold hostReads at h
  split at h
  · exact .inl (Host.Outcome.next.inj h).symm
  · split at h
    · exact .inr (.inl (Host.Outcome.next.inj h).symm)
    · rename_i h1 h2
      refine .inr (.inr ⟨(Host.Outcome.next.inj h).symm, ?_, ?_, ?_⟩)
      · simp at h1; exact h1.1
      · simp at h1; exact h1.2
      · simpa using h2

/-- What a host write of bytes can do (R207, R208). -/
theorem hostWrites_cases {al : Bool} {a : Addr} {bs : List Byte} {s t : State} (h : hostWrites al a bs s = .next t) :
    t = refuse (.hostAccessUnmapped a) .host s ∨ t = raise (.ownershipRace a) .host s
      ∨ (t = { s with mem := writeBytes s.mem a bs } ∧ al = true ∧ firstMissing s.memMap a bs.length = none
          ∧ s.ownedDescMeets a bs.length = false ∧ s.ownedBufferMeets a bs.length = false) := by
  unfold hostWrites at h
  split at h
  · exact .inl (Host.Outcome.next.inj h).symm
  · split at h
    · exact .inr (.inl (Host.Outcome.next.inj h).symm)
    · rename_i h1 h2
      refine .inr (.inr ⟨(Host.Outcome.next.inj h).symm, ?_, ?_, ?_, ?_⟩)
      · simp at h1; exact h1.1
      · simp at h1; exact h1.2
      · simp at h2; exact h2.1
      · simp at h2; exact h2.2

/-- The operations always answer a next state. -/
theorem hostReads_next (al : Bool) (a : Addr) (n : Nat) (s : State) (k : List Byte → State) :
    ∃ t, hostReads al a n s k = .next t := by
  unfold hostReads; split <;> [exact ⟨_, rfl⟩; split <;> exact ⟨_, rfl⟩]

theorem hostWrites_next (al : Bool) (a : Addr) (bs : List Byte) (s : State) :
    ∃ t, hostWrites al a bs s = .next t := by
  unfold hostWrites; split <;> [exact ⟨_, rfl⟩; split <;> exact ⟨_, rfl⟩]

/-! ### Register reads and pseudo-operations -/

/-- What any register read can do: return a value, perhaps drawn; the drain also clears ICR and emits Drain. -/
theorem readRule_cases (reg : Reg) (s : State) :
    (∃ v, readRule reg s = .next (s.getsWord v)) ∨ (∃ v, readRule reg s = .next (s.afterDraw.getsWord v))
      ∨ (reg = .icr ∧ readRule reg s =
          .next (({ s with icr := 0 }.emit (.drain (s.icr &&& causeMask))).getsWord (s.icr &&& causeMask))) := by
  cases reg <;>
    first
    | exact .inl ⟨_, rfl⟩
    | exact .inr (.inl ⟨_, rfl⟩)
    | exact .inr (.inr ⟨rfl, rfl⟩)

/-- The read rule of a register is the meaning of its read instruction. -/
theorem exec_readInstr (reg : Reg) (s : State) : exec reg.readInstr s = readRule reg s := by cases reg <;> rfl

/-- What the first step of a pseudo-operation can do: the marks of a rejected offset, or the register's read with the
write queued as the host's next command. -/
theorem readThenWrite_cases {o : Nat} {upd : Word → Word} {s t : State} (h : readThenWrite o upd s = .next t) :
    (∃ e, decodeOffset o = .error e ∧ t = rejectAccess e s)
    ∨ (∃ reg u, decodeOffset o = .ok reg ∧ readRule reg s = .next u
        ∧ t = u.pushCode [.access (Access.wr o (upd u.word))]) := by
  unfold readThenWrite at h
  split at h
  next e he => exact .inl ⟨e, he, (Host.Outcome.next.inj h).symm⟩
  next reg he =>
    split at h
    next u hu => exact .inr ⟨reg, u, he, hu, (Host.Outcome.next.inj h).symm⟩
    all_goals cases h

theorem readThenWrite_next (o : Nat) (upd : Word → Word) (s : State) : ∃ t, readThenWrite o upd s = .next t := by
  unfold readThenWrite
  split
  · exact ⟨_, rfl⟩
  next reg _ => rcases readRule_cases reg s with ⟨v, h⟩ | ⟨v, h⟩ | ⟨_, h⟩ <;> rw [h] <;> exact ⟨_, rfl⟩

/-! ### exec and step -/

/-- No meaning answers a fault or a refusal: what the spec stops on sets a mark (R603), and the next step stops. -/
theorem exec_next (i : Instr) (s : State) : ∃ t, exec i s = .next t := by
  cases i with
  | ld n a => simp only [exec, execLd]; exact hostReads_next _ _ _ _ _
  | st n a v => simp only [exec, execSt]; exact hostWrites_next _ _ _ _
  | copy a bs => simp only [exec, execCopy]; exact hostWrites_next _ _ _ _
  | setBits o m => simp only [exec, execSetBits]; exact readThenWrite_next _ _ _
  | clearBits o m => simp only [exec, execClearBits]; exact readThenWrite_next _ _ _
  | writeField o m sh v =>
    simp only [exec, execWriteField]
    split
    · exact ⟨_, rfl⟩
    · exact readThenWrite_next _ _ _
  | txd d => simp only [exec, execTxd]; repeat' split
             all_goals exact ⟨_, rfl⟩
  | txdExt d => simp only [exec, execTxdExt]; split <;> exact ⟨_, rfl⟩
  | rxd d => simp only [exec, execRxd]; repeat' split
             all_goals exact ⟨_, rfl⟩
  | wrEerd v => simp only [exec, execWrEerd]; repeat' split
                all_goals exact ⟨_, rfl⟩
  | wrRctl v => simp only [exec, execWrRctl]; split <;> exact ⟨_, rfl⟩
  | wrTctl v => simp only [exec, execWrTctl]; split <;> exact ⟨_, rfl⟩
  | wrRdbal v => simp only [exec, execWrRdbal, unlessEnabled]; split <;> exact ⟨_, rfl⟩
  | wrRdbah v => simp only [exec, execWrRdbah, unlessEnabled]; split <;> exact ⟨_, rfl⟩
  | wrRdlen v => simp only [exec, execWrRdlen, unlessEnabled]; split <;> exact ⟨_, rfl⟩
  | wrTdbal v => simp only [exec, execWrTdbal, unlessEnabled]; split <;> exact ⟨_, rfl⟩
  | wrTdbah v => simp only [exec, execWrTdbah, unlessEnabled]; split <;> exact ⟨_, rfl⟩
  | wrTdlen v => simp only [exec, execWrTdlen, unlessEnabled]; split <;> exact ⟨_, rfl⟩
  | wrRdh v => simp only [exec, execWrRdh, unlessEnabled, cursorWrite]; repeat' split
               all_goals exact ⟨_, rfl⟩
  | wrTdh v => simp only [exec, execWrTdh, unlessEnabled, cursorWrite]; repeat' split
               all_goals exact ⟨_, rfl⟩
  | wrRdt v => simp only [exec, execWrRdt, cursorWrite]; split <;> exact ⟨_, rfl⟩
  | wrTdt v => simp only [exec, execWrTdt, cursorWrite]; split <;> exact ⟨_, rfl⟩
  | _ => exact ⟨_, rfl⟩

/-- What running a code can do: execute the instruction it decodes to, or set the mark of its rejection. -/
theorem runCode_cases (c : Code) (s : State) :
    (∃ i, decode c = .ok i ∧ runCode c s = exec i s) ∨ (∃ e, decode c = .error e ∧ runCode c s = .next (rejectAccess e s)) := by
  unfold runCode
  split
  next i h => exact .inl ⟨i, h, rfl⟩
  next e h => exact .inr ⟨e, h, rfl⟩

end Sys2Proof.Machine
end

