-- ==== Sys2Proof/Laws/Host.lean ====
section
/-! SUPPORT. What ring construction can do, and how its placement check is met range by range. -/

namespace Sys2Proof.Machine

/-- An access inside one range of `MEM` that does not wrap misses no byte. -/
theorem firstMissing_none_of_range {map : List (Nat × Nat)} {p : Nat × Nat} (hp : p ∈ map) {n : Nat} {a : Addr}
    (h1 : p.1 ≤ a.toNat) (h2 : a.toNat + n ≤ p.1 + p.2) (h3 : a.toNat + n ≤ 2 ^ 64) : firstMissing map a n = none := by
  induction n generalizing a with
  | zero => rfl
  | succ n ih =>
    have he : exists? map a.toNat = true :=
      List.any_eq_true.2 ⟨p, hp, by simp only [Bool.and_eq_true, decide_eq_true_eq]; omega⟩
    rw [firstMissing, if_pos he]
    cases n with
    | zero => rfl
    | succ n =>
      have ha : (a + 1).toNat = a.toNat + 1 := by
        rw [BitVec.toNat_add, show (1 : Addr).toNat = 1 from rfl, Nat.mod_eq_of_lt (by omega)]
      exact ih (by omega) (by omega) (by omega)

/-- The placement of R714, its regions each inside one range of `MEM`. -/
theorem wellPlaced_of_ranges {map : List (Nat × Nat)} {d : Driver}
    (h : (pageAligned d.txRing && pageAligned d.rxRing && d.txBuf.length == d.nTx && d.rxBuf.length == d.nRx) = true)
    (hr : ∀ g ∈ placedRegions d, ∃ p ∈ map, p.1 ≤ g.1.toNat ∧ g.1.toNat + g.2 ≤ p.1 + p.2 ∧ g.1.toNat + g.2 ≤ 2 ^ 64)
    (hd : disjointRegions (placedRegions d) = true) : wellPlaced map d = true := by
  have hm : (placedRegions d).all (fun g => (firstMissing map g.1 g.2).isNone) = true := by
    rw [List.all_eq_true]
    intro g hg
    obtain ⟨p, hp, h1, h2, h3⟩ := hr g hg
    rw [firstMissing_none_of_range hp h1 h2 h3]; rfl
  unfold wellPlaced
  rw [h, hm, hd]; rfl

/-- What ring construction can do: take over an allowed plan and queue its writes, or nothing. -/
theorem constructRings_cases (plan : Driver) (s : State) :
    (paramsOk plan = true ∧ wellPlaced s.memMap plan = true
        ∧ constructRings plan s = critical (ringCode plan) { s with drv := plan })
      ∨ ((paramsOk plan && wellPlaced s.memMap plan) = false ∧ constructRings plan s = s) := by
  unfold constructRings
  split
  next h => rw [Bool.and_eq_true] at h; exact .inl ⟨h.1, h.2, rfl⟩
  next h => exact .inr ⟨by simpa using h, rfl⟩

end Sys2Proof.Machine
end

