-- ==== Sys2Proof/Laws/PerInstr.lean ====
section
/-! SUPPORT. Statements for all instructions, made per instruction: the shape of the code each is encoded as. -/

namespace Sys2Proof.Laws.CodeShape

/-- A code of a shape the agents present (R104, R105, R140): a register access is 32 bits wide at an aligned in-window
offset, so that its key's low bits are its offset; a descriptor or a host operation always is. -/
def codeOk : Code → Prop
  | .access a => a.width = Config.regWidth ∧ a.offset % 4 = 0 ∧ a.offset < Config.regWindowLen
      ∧ (a.key.extractLsb' 0 17).toNat = a.offset ∧ a.key.getLsbD 17 = a.write
  | .txDesc _ => True
  | .rxDesc _ => True
  | .hostOp _ => True

/-- The code of a well-formed instruction has a shape the agents present. -/
def Statement (i : Instr) : Prop := WellFormed i → codeOk (encode i)

theorem readCode_ok (r : Reg) : codeOk r.readCode := by
  have h : ∀ r : Reg, r.offset % 4 = 0 ∧ r.offset < Config.regWindowLen
      ∧ (((Access.rd r.offset).key).extractLsb' 0 17).toNat = r.offset ∧ (Access.rd r.offset).key.getLsbD 17 = false := by
    intro r; cases r <;> decide
  exact ⟨rfl, h r⟩

theorem writeCode_ok (r : Reg) (v : Word) : codeOk (r.writeCode v) := by
  have h : ∀ r : Reg, r.offset % 4 = 0 ∧ r.offset < Config.regWindowLen
      ∧ (((Access.wr r.offset 0).key).extractLsb' 0 17).toNat = r.offset ∧ (Access.wr r.offset 0).key.getLsbD 17 = true := by
    intro r; cases r <;> decide
  exact ⟨rfl, h r⟩

theorem rdStatus : Statement .rdStatus := fun _ => readCode_ok .status

theorem wrStatus (v : Word) : Statement (.wrStatus v) := fun _ => writeCode_ok .status v

theorem rdEerd : Statement .rdEerd := fun _ => readCode_ok .eerd

theorem wrEerd (v : Word) : Statement (.wrEerd v) := fun _ => writeCode_ok .eerd v

theorem rdIcr : Statement .rdIcr := fun _ => readCode_ok .icr

theorem wrIcr (v : Word) : Statement (.wrIcr v) := fun _ => writeCode_ok .icr v

theorem rdIcs : Statement .rdIcs := fun _ => readCode_ok .ics

theorem wrIcs (v : Word) : Statement (.wrIcs v) := fun _ => writeCode_ok .ics v

theorem rdIms : Statement .rdIms := fun _ => readCode_ok .ims

theorem wrIms (v : Word) : Statement (.wrIms v) := fun _ => writeCode_ok .ims v

theorem rdImc : Statement .rdImc := fun _ => readCode_ok .imc

theorem wrImc (v : Word) : Statement (.wrImc v) := fun _ => writeCode_ok .imc v

theorem rdRctl : Statement .rdRctl := fun _ => readCode_ok .rctl

theorem wrRctl (v : Word) : Statement (.wrRctl v) := fun _ => writeCode_ok .rctl v

theorem rdTctl : Statement .rdTctl := fun _ => readCode_ok .tctl

theorem wrTctl (v : Word) : Statement (.wrTctl v) := fun _ => writeCode_ok .tctl v

theorem rdTipg : Statement .rdTipg := fun _ => readCode_ok .tipg

theorem wrTipg (v : Word) : Statement (.wrTipg v) := fun _ => writeCode_ok .tipg v

theorem rdRdbal : Statement .rdRdbal := fun _ => readCode_ok .rdbal

theorem wrRdbal (v : Word) : Statement (.wrRdbal v) := fun _ => writeCode_ok .rdbal v

theorem rdRdbah : Statement .rdRdbah := fun _ => readCode_ok .rdbah

theorem wrRdbah (v : Word) : Statement (.wrRdbah v) := fun _ => writeCode_ok .rdbah v

theorem rdRdlen : Statement .rdRdlen := fun _ => readCode_ok .rdlen

theorem wrRdlen (v : Word) : Statement (.wrRdlen v) := fun _ => writeCode_ok .rdlen v

theorem rdRdh : Statement .rdRdh := fun _ => readCode_ok .rdh

theorem wrRdh (v : Word) : Statement (.wrRdh v) := fun _ => writeCode_ok .rdh v

theorem rdRdt : Statement .rdRdt := fun _ => readCode_ok .rdt

theorem wrRdt (v : Word) : Statement (.wrRdt v) := fun _ => writeCode_ok .rdt v

theorem rdTdbal : Statement .rdTdbal := fun _ => readCode_ok .tdbal

theorem wrTdbal (v : Word) : Statement (.wrTdbal v) := fun _ => writeCode_ok .tdbal v

theorem rdTdbah : Statement .rdTdbah := fun _ => readCode_ok .tdbah

theorem wrTdbah (v : Word) : Statement (.wrTdbah v) := fun _ => writeCode_ok .tdbah v

theorem rdTdlen : Statement .rdTdlen := fun _ => readCode_ok .tdlen

theorem wrTdlen (v : Word) : Statement (.wrTdlen v) := fun _ => writeCode_ok .tdlen v

theorem rdTdh : Statement .rdTdh := fun _ => readCode_ok .tdh

theorem wrTdh (v : Word) : Statement (.wrTdh v) := fun _ => writeCode_ok .tdh v

theorem rdTdt : Statement .rdTdt := fun _ => readCode_ok .tdt

theorem wrTdt (v : Word) : Statement (.wrTdt v) := fun _ => writeCode_ok .tdt v

theorem rdRal0 : Statement .rdRal0 := fun _ => readCode_ok .ral0

theorem wrRal0 (v : Word) : Statement (.wrRal0 v) := fun _ => writeCode_ok .ral0 v

theorem rdRah0 : Statement .rdRah0 := fun _ => readCode_ok .rah0

theorem wrRah0 (v : Word) : Statement (.wrRah0 v) := fun _ => writeCode_ok .rah0 v

theorem txd (d : TxDesc) : Statement (.txd d) := fun _ => trivial

theorem txdExt (d : TxDesc) : Statement (.txdExt d) := fun _ => trivial

theorem rxd (d : RxDesc) : Statement (.rxd d) := fun _ => trivial

theorem ld (n : Size) (a : Addr) : Statement (.ld n a) := fun _ => trivial

theorem st (n : Size) (a : Addr) (v : BitVec 64) : Statement (.st n a v) := fun _ => trivial

theorem copy (a : Addr) (bytes : List Byte) : Statement (.copy a bytes) := fun _ => trivial

theorem setBits (offset : Nat) (m : Word) : Statement (.setBits offset m) := fun _ => trivial

theorem clearBits (offset : Nat) (m : Word) : Statement (.clearBits offset m) := fun _ => trivial

theorem writeField (offset : Nat) (m : Word) (shift : Nat) (v : Word) : Statement (.writeField offset m shift v) :=
  fun _ => trivial

end Sys2Proof.Laws.CodeShape
end

