-- ==== Sys2Proof/Laws/Step.lean ====
section
/-! SUPPORT. What one step can do. -/

namespace Sys2Proof.Machine

theorem stopped_none_iff (s : State) : s.stopped = none ↔ s.Unmarked := by
  unfold State.stopped State.Unmarked
  rw [unmarked_iff]
  cases hf : s.fault <;> cases hr : s.refused <;> simp

/-- A step that answers a next state started unmarked and ran the turn's agent. -/
theorem step_next {s t : State} (h : step s = .next t) : s.Unmarked ∧ runTurn s.turn s.begin = .next t := by
  unfold step at h
  split at h
  next out ho =>
    unfold State.stopped at ho
    split at ho
    · cases ho; cases h
    · cases hr : s.refused with
      | none => rw [hr] at ho; cases ho
      | some m => rw [hr] at ho; cases ho; cases h
  next ho => exact ⟨(stopped_none_iff s).1 ho, h⟩

/-- An unmarked state's step is its turn's agent's step. -/
theorem step_of_unmarked {s : State} (h : s.Unmarked) : step s = runTurn s.turn s.begin := by
  unfold step
  rw [(stopped_none_iff s).2 h]

/-- A state of a run and the next: quiescent, or one turn's step. -/
theorem follows_cases {τ : Turn} {s u : State} (h : follows τ s u) :
    (s.marked = true ∧ u = s) ∨ (s.Unmarked ∧ runTurn τ s.begin = .next u) := by
  unfold follows at h
  split at h
  next hm => exact .inl ⟨hm, h⟩
  next hm => exact .inr ⟨by simpa using hm, h⟩

/-- `step` is what follows in the state's own turn. -/
theorem step_follows {s u : State} (h : s.Unmarked) : step s = .next u ↔ follows s.turn s u := by
  rw [step_of_unmarked h, follows, if_neg (by rw [h]; decide)]

/-- An agent with no enabled step leaves an unmarked state as it is (log 19). -/
theorem runTurn_of_not_enabled {τ : Turn} {s : State} (h : s.Unmarked) (he : enabled τ s = false) : runTurn τ s = .next s := by
  unfold State.Unmarked at h
  cases τ with
  | host =>
    simp only [enabled, h, Bool.not_false, Bool.and_true, Bool.or_eq_false_iff, Bool.not_eq_false', List.isEmpty_iff] at he
    have hc : s.ctx ≠ .irq := by simpa using he.2
    simp only [runTurn, hostStep, he.1, if_neg hc]
  | txEngine => simp only [enabled] at he; simp [runTurn, txEngineStep, he]
  | rxEngine => simp only [enabled] at he; simp [runTurn, rxEngineStep, he]
  | rxTimer => simp only [enabled] at he; simp [runTurn, rxTimerStep, he]
  | eeprom => simp only [enabled] at he; simp [runTurn, eepromStep, he]
  | otherCause => simp [enabled, h] at he
  | wire f ok => simp [enabled, h] at he
  | deliver => simp only [enabled] at he; simp [runTurn, deliverStep, he]
  | spurious => simp only [enabled] at he; simp [runTurn, deliverStep, he]
  | terminate =>
    have hb : s.blocked = none := by simpa [enabled, h] using he
    simp only [runTurn, ← hb]

end Sys2Proof.Machine
end

