-- ==== Sys2Proof/Tests/Slice0.lean ====
section
/-! SUPPORT. Tests: expected results are from spec/95_test_vectors.md (named V-..) or worked out by hand from the rule named;
and, for every statement with hypotheses, a concrete state and operands that meet them (`test_hyps_...`). -/

namespace Sys2Proof.Tests

open Sys2Proof.Machine Sys2Proof.Stated

/-! ### Helpers -/

/-- The outcome is a next state of which `p` holds. -/
def next (o : Out) (p : State → Bool) : Bool :=
  match o with
  | .next t => p t
  | _ => false

/-- The outcome is a next state with this fault mark. -/
def faults (o : Out) (f : Fault) : Bool := next o (fun t => t.fault.map (·.what) == some f)

/-- The outcome is a next state with this refusal mark. -/
def refuses (o : Out) (f : Refusal) : Bool := next o (fun t => t.refused.map (·.what) == some f)

/-- `MEM` of 95_test_vectors.md section 0. -/
def map0 : List (Nat × Nat) :=
  [(0x00100000, 0x80), (0x00101000, 0x80), (0x00200000, 0x4000), (0x00300000, 0x4000)]

/-- Descriptors 0 of both rings with their initial contents (section 0). -/
def mem0 : Memory := [(0x00100002, 0x20), (0x0010000C, 0x01), (0x00101002, 0x30)]

/-- Buffers `i` of section 0: 0x800 bytes apart. -/
def bufs (base : Nat) : List Addr := (List.range 8).map (fun i => BitVec.ofNat 64 (base + 0x800 * i))

/-- The host's copies of section 0. -/
def drv0 : Driver := ⟨0x00100000, 8, bufs 0x00200000, 1518, 0x00101000, 8, bufs 0x00300000, 16⟩

/-- The rings of section 0 programmed, nothing enabled. -/
def prog : State :=
  { State.reset with
    memMap := map0, mem := mem0, drv := drv0, tdbal := 0x00100000, tdlen := 0x80, rdbal := 0x00101000, rdlen := 0x80 }

/-- The initialised state (end of P1), as far as the tests need it. -/
def ini : State :=
  { prog with
    tctl := 0x0004000A, rctl := 0x04000002, rdt := 7, ral0 := 0x12005452, rah0 := 0x80005634, mask := 0x80,
    ie := true, irqUnmasked := true }

/-- Descriptor 0 of V-E1: 60 bytes at 0x00200000, RS and EOP. -/
def desc1 : TxDesc := ⟨0x00200000, 60, 0, 0x09, 0, 0, 0, 0⟩

/-- V-E1: descriptor 0 set by the host, then `wr TDT, 1`. -/
def tx1 : State :=
  { ini with tdt := 1, mem := [(0x00100002, 0x20), (0x00100008, 60), (0x0010000B, 0x09), (0x00101002, 0x30)] }

/-- A 64-byte frame to the station address 52:54:00:12:34:56. -/
def frame : List Byte := [0x52, 0x54, 0, 0x12, 0x34, 0x56] ++ List.replicate 58 7

/-- V-RX1: the frame queued. -/
def rx1 : State := { ini with rxFifo := [frame] }

/-- V-RX1's receive descriptor. -/
def rdesc : RxDesc := ⟨0x00300000, 0, 0, 0, 0, 0⟩

/-- A host about to run one command. -/
def hostWith (c : HostCmd) (s : State) : State := { s with code := [c], agenda := [.host] }

/-! ### WellFormed refuses each ill-formed operand -/

theorem test_wf_txd_with_dext : ¬ WellFormed (.txd ⟨0, 60, 0, 0x29, 0, 0, 0, 0⟩) := by decide
theorem test_wf_txdExt_without_dext : ¬ WellFormed (.txdExt ⟨0, 60, 0, 0x09, 0, 0, 0, 0⟩) := by decide
theorem test_wf_ld_misaligned : ¬ WellFormed (.ld .four 2) := by decide
theorem test_wf_st_misaligned : ¬ WellFormed (.st .two 1 0) := by decide
theorem test_wf_st_value_too_wide : ¬ WellFormed (.st .one 0 0x100) := by decide
theorem test_wf_setBits_no_register : ¬ WellFormed (.setBits 0x4 0) := by decide
theorem test_wf_clearBits_misaligned : ¬ WellFormed (.clearBits 0x402 0) := by decide
theorem test_wf_writeField_no_register : ¬ WellFormed (.writeField 0x20000 0 0 0) := by decide
theorem test_wf_writeField_shift : ¬ WellFormed (.writeField 0x400 0 32 0) := by decide

/-- A copy longer than the address space is ill-formed. -/
theorem test_wf_copy_too_long : ¬ WellFormed (.copy 0 (List.replicate (2 ^ 64 + 1) 0)) := by
  simp only [WellFormed, wellFormed, List.length_replicate, decide_eq_true_eq]
  omega

theorem test_wf_accepts :
    WellFormed (.txd desc1) ∧ WellFormed (.txdExt ⟨0, 0, 0, 0x20, 0, 0, 0, 0⟩) ∧ WellFormed (.ld .four 4)
      ∧ WellFormed (.st .one 3 0xFF) ∧ WellFormed (.copy 1 [1]) ∧ WellFormed (.setBits 0x400 2)
      ∧ WellFormed (.writeField 0x5404 3 31 1) := by decide

/-! ### Decoding: words written out from R141, R150, R160 -/

/-- The read keys of R141. -/
theorem test_decode_read_keys :
    [0x00008, 0x00014, 0x000C0, 0x000C8, 0x000D0, 0x000D8, 0x00100, 0x00400, 0x00410, 0x02800, 0x02804].map (decodeTableWord 24)
      = [Instr.rdStatus, .rdEerd, .rdIcr, .rdIcs, .rdIms, .rdImc, .rdRctl, .rdTctl, .rdTipg, .rdRdbal, .rdRdbah].map some
    ∧ [0x02808, 0x02810, 0x02818, 0x03800, 0x03804, 0x03808, 0x03810, 0x03818, 0x05400, 0x05404].map (decodeTableWord 24)
      = [Instr.rdRdlen, .rdRdh, .rdRdt, .rdTdbal, .rdTdbah, .rdTdlen, .rdTdh, .rdTdt, .rdRal0, .rdRah0].map some := by
  decide

/-- The write keys of R141, with the data word 0x0004000A after the key. -/
theorem test_decode_write_keys :
    [0x20008, 0x20014, 0x200C0, 0x200C8, 0x200D0, 0x200D8, 0x20100, 0x20400, 0x20410, 0x22800, 0x22804].map
        (fun k => decodeTableWord 56 (k + 0x0004000A000000))
      = [Instr.wrStatus 0x4000A, .wrEerd 0x4000A, .wrIcr 0x4000A, .wrIcs 0x4000A, .wrIms 0x4000A, .wrImc 0x4000A, .wrRctl 0x4000A,
          .wrTctl 0x4000A, .wrTipg 0x4000A, .wrRdbal 0x4000A, .wrRdbah 0x4000A].map some
    ∧ [0x22808, 0x22810, 0x22818, 0x23800, 0x23804, 0x23808, 0x23810, 0x23818, 0x25400, 0x25404].map
        (fun k => decodeTableWord 56 (k + 0x0004000A000000))
      = [Instr.wrRdlen 0x4000A, .wrRdh 0x4000A, .wrRdt 0x4000A, .wrTdbal 0x4000A, .wrTdbah 0x4000A, .wrTdlen 0x4000A,
          .wrTdh 0x4000A, .wrTdt 0x4000A, .wrRal0 0x4000A, .wrRah0 0x4000A].map some := by
  decide

/-- R150: buffer_addr 63:0, length 79:64, cso 87:80, cmd 95:88, sta 99:96, rsv 103:100, css 111:104, special 127:112. -/
theorem test_decode_txd :
    decodeTableWord 128 0xABCD1283091F003C0000000000200000 = some (.txd ⟨0x00200000, 0x3C, 0x1F, 0x09, 3, 8, 0x12, 0xABCD⟩) := by
  decide

/-- R154: bit 93 alone selects the extended formats. -/
theorem test_decode_txdExt :
    decodeTableWord 128 0x00000000200000000000000000000000 = some (.txdExt ⟨0, 0, 0, 0x20, 0, 0, 0, 0⟩) := by decide

/-- R160: buffer_addr 63:0, length 79:64, checksum 95:80, status 103:96, errors 111:104, special 127:112. -/
theorem test_decode_rxd :
    decode (.rxDesc 0xABCD1203BEEF003C0000000000300000#128) = .ok (.rxd ⟨0x00300000, 0x3C, 0xBEEF, 3, 0x12, 0xABCD⟩) := by decide

/-- The host's operations stand for themselves (R170). -/
theorem test_decode_host_ops :
    decode (.hostOp (.ld .two 8)) = .ok (.ld .two 8) ∧ decode (.hostOp (.st .two 8 0x3C)) = .ok (.st .two 8 0x3C)
      ∧ decode (.hostOp (.copy 8 [1, 2])) = .ok (.copy 8 [1, 2]) ∧ decode (.hostOp (.setBits 0x400 2)) = .ok (.setBits 0x400 2)
      ∧ decode (.hostOp (.clearBits 0x100 2)) = .ok (.clearBits 0x100 2)
      ∧ decode (.hostOp (.writeField 0x400 0x3FF000 12 0x40)) = .ok (.writeField 0x400 0x3FF000 12 0x40) := by decide

/-- No register at the family's device control offset 0, nor at 0x1FFFC; a key of more than 18 bits is no access. -/
theorem test_decode_rejects :
    decodeTableWord 24 0 = none ∧ decodeTableWord 24 0x1FFFC = none ∧ decodeTableWord 24 0x3FFFC = none
      ∧ decodeTableWord 24 0x40008 = none := by decide

/-! ### A placed word is what the next step runs -/

/-- `rd IMS`, `wr IMS, 0` and a transmit descriptor of length 0 (F12) as the first instruction after reset. -/
theorem test_fetch :
    next (step (State.reset.withFetchWord 24 0x000D0)) (fun t => t.steps == 1 && t.code == [] && !t.marked) = true
      ∧ next (step (State.reset.withFetchWord 24 0x200D0)) (fun t => t.mask == 0 && !t.marked) = true
      ∧ faults (step (State.reset.withFetchWord 128 0)) (.badTxLength 0) = true
      ∧ refuses (step (State.reset.withFetchWord 128 (2 ^ 93))) (.extendedDescriptor 0) = true := by decide

/-- A receive descriptor placed at the receive head runs in the next step. -/
theorem test_fetch_rx :
    next (step (place (.rxDesc 0x00300000#128) State.reset)) (fun t => t.rdh == 1 && t.rxTimerArmed && t.rxFifo == []) = true := by
  decide

/-! ### Register accesses (2.1, 2.2, 2.5, 2.9) -/

/-- V-RA1 to V-RA7: the generic checks in their order. -/
theorem test_access_checks :
    faults (runCode (.access ⟨32, false, 0x00002, 0⟩) State.reset) (.misalignedRegisterAccess 2) = true
      ∧ faults (runCode (.access ⟨32, false, 0x20000, 0⟩) State.reset) (.registerOffsetOutOfRange 0x20000) = true
      ∧ refuses (runCode (.access ⟨32, false, 0x1FFFC, 0⟩) State.reset) (.unmodelledRegister 0x1FFFC) = true
      ∧ refuses (runCode (.access ⟨32, false, 0, 0⟩) State.reset) (.unmodelledRegister 0) = true
      ∧ refuses (runCode (.access ⟨16, false, 0x03818, 0⟩) State.reset) (.unsupportedAccessWidth 0x03818 16) = true
      ∧ refuses (runCode (.access ⟨16, false, 2, 0⟩) State.reset) (.unsupportedAccessWidth 2 16) = true
      ∧ faults (runCode (.access ⟨32, true, 0x20001, 0⟩) State.reset) (.misalignedRegisterAccess 0x20001) = true := by decide

/-- V-RA8: a STATUS read changes nothing but the value read and the number of draws. -/
theorem test_rdStatus :
    next (exec .rdStatus ini) (fun t => decide ({ t with r := 0, draws := 0 } = { ini with r := 0, draws := 0 })) = true := by decide

/-- V-RA9. -/
theorem test_wrStatus : refuses (exec (.wrStatus 0) ini) (.writeToReadOnly 0) = true := by decide

/-- V-RA10: every other read but EERD's gives 0 after reset. -/
theorem test_reads_after_reset :
    [Instr.rdIcr, .rdIms, .rdRctl, .rdTctl, .rdTipg, .rdRdbal, .rdRdbah, .rdRdlen, .rdRdh, .rdRdt, .rdTdbal, .rdTdbah, .rdTdlen,
      .rdTdh, .rdTdt, .rdRal0, .rdRah0].all (fun i => next (exec i { State.reset with r := 5 }) (fun t => t.r == 0)) = true := by
  decide

/-- Each register read returns its own register, zero extended. -/
theorem test_reads_their_register :
    (let s := { State.reset with
      mask := 1, rctl := 2, tctl := 3, tipg := 4, rdbal := 5, rdbah := 6, rdlen := 7, rdh := 0xFFF8, rdt := 9, tdbal := 10,
      tdbah := 11, tdlen := 12, tdh := 13, tdt := 0xFFFE, ral0 := 15, rah0 := 0xFFFFFFF0 }
    [Instr.rdIms, .rdRctl, .rdTctl, .rdTipg, .rdRdbal, .rdRdbah, .rdRdlen, .rdRdh, .rdRdt, .rdTdbal, .rdTdbah, .rdTdlen,
      .rdTdh, .rdTdt, .rdRal0, .rdRah0].map (fun i => match exec i s with | .next t => t.r.toNat | _ => 0)
    = [1, 2, 3, 4, 5, 6, 7, 0xFFF8, 9, 10, 11, 12, 13, 0xFFFE, 15, 0xFFFFFFF0]) := by decide

/-- V-T1, and the writes of the other transmit registers while disabled. -/
theorem test_transmit_writes :
    next (exec (.wrTdbal 0x00100008) State.reset) (fun t => t.tdbal == 0x00100008) = true
      ∧ next (exec (.wrTdbah 0xFFFFFFFF) State.reset) (fun t => t.tdbah == 0xFFFFFFFF) = true
      ∧ next (exec (.wrTdlen 0x40) State.reset) (fun t => t.tdlen == 0x40) = true
      ∧ next (exec (.wrTdh 7) prog) (fun t => t.tdh == 7) = true := by decide

/-- V-T3, V-T17. -/
theorem test_transmit_writes_while_enabled :
    faults (exec (.wrTdlen 0x100) ini) (.configWhileEnabled .tdlen) = true
      ∧ next (exec (.wrTdlen 0x100) ini) (fun t => t.tdlen == 0x80) = true
      ∧ faults (exec (.wrTdh 0) ini) (.configWhileEnabled .tdh) = true
      ∧ faults (exec (.wrTdbal 0) ini) (.configWhileEnabled .tdbal) = true
      ∧ faults (exec (.wrTdbah 0) ini) (.configWhileEnabled .tdbah) = true := by decide

/-- V-T7 to V-T10, V-T16. -/
theorem test_wrTdt :
    faults (exec (.wrTdt 8) prog) (.cursorOutOfRange .tdt 8) = true ∧ next (exec (.wrTdt 7) prog) (fun t => t.tdt == 7) = true
      ∧ faults (exec (.wrTdt 0x00010000) prog) (.cursorOutOfRange .tdt 0x00010000) = true
      ∧ next (exec (.wrTdt 0) State.reset) (fun t => t.tdt == 0 && !t.marked) = true
      ∧ faults (exec (.wrTdt 1) State.reset) (.cursorOutOfRange .tdt 1) = true
      ∧ next (exec (.wrTdt 5) { ini with tdh := 2 }) (fun t => t.tdt == 5
          && (List.range 8).map t.txRing.owns == [false, false, true, true, true, false, false, false]) = true := by decide

/-- V-T2, V-T4, V-T5, V-T11: the store comes first, then F8, F7, F7, F5. -/
theorem test_wrTctl_faults :
    next (exec (.wrTctl 2) { prog with tdbal := 0x00100008 }) (fun t => t.tctl == 2) = true
      ∧ faults (exec (.wrTctl 2) { prog with tdbal := 0x00100008 }) (.badRingBase 0x00100008) = true
      ∧ faults (exec (.wrTctl 2) { prog with tdlen := 0x40 }) (.badRingLength 0x40) = true
      ∧ faults (exec (.wrTctl 2) { prog with tdlen := 0x100000 }) (.badRingLength 0x100000) = true
      ∧ faults (exec (.wrTctl 2) { prog with tdh := 12 }) (.cursorOutOfRange .tdh 12) = true := by decide

/-- V-T6, V-T12 to V-T14, and P1's value. -/
theorem test_wrTctl :
    next (exec (.wrTctl 2) { prog with tdlen := 0xFFF80 }) (fun t => t.tctl == 2 && !t.marked && t.txRing.size == 65528) = true
      ∧ refuses (exec (.wrTctl 0x0004000B) prog) (.unmodelledControlField .tctl 0x0004000B) = true
      ∧ refuses (exec (.wrTctl 0x40000002) prog) (.unmodelledControlField .tctl 0x40000002) = true
      ∧ next (exec (.wrTctl 0x00040008) State.reset) (fun t => t.tctl == 0x00040008 && !t.marked) = true
      ∧ next (exec (.wrTctl 0x0004000A) prog) (fun t => t.tctl == 0x0004000A && !t.marked) = true := by decide

/-- V-T15. -/
theorem test_tipg :
    next (exec (.wrTipg 0x0060200A) ini) (fun t => next (exec .rdTipg t) (fun u => u.word == 0x0060200A)) = true := by decide

/-- V-R1 to V-R5. -/
theorem test_wrRctl :
    [0x04000003, 0x04000006, 0x06000002].all (fun v => refuses (exec (.wrRctl v) prog) (.unmodelledControlField .rctl v)) = true
      ∧ next (exec (.wrRctl 0x04008002) prog) (fun t => t.rctl == 0x04008002 && !t.marked) = true
      ∧ next (exec (.wrRctl 0x04013302) prog) (fun t => !t.marked && rxBufferSize t.rctl == 1024) = true := by decide

/-- R305: the receive enable's checks, in the transmit order. -/
theorem test_wrRctl_faults :
    faults (exec (.wrRctl 3) State.reset) (.badRingLength 0) = true
      ∧ faults (exec (.wrRctl 3) { prog with rdbal := 8, rdt := 8 }) (.badRingBase 8) = true
      ∧ faults (exec (.wrRctl 3) { prog with rdt := 8 }) (.cursorOutOfRange .rdt 8) = true := by decide

/-- V-R6, V-R7 and the receive base and length while enabled. -/
theorem test_receive_writes_while_enabled :
    faults (exec (.wrRdh 0) ini) (.configWhileEnabled .rdh) = true ∧ faults (exec (.wrRdt 8) ini) (.cursorOutOfRange .rdt 8) = true
      ∧ next (exec (.wrRdt 3) ini) (fun t => t.rdt == 3) = true
      ∧ faults (exec (.wrRdbal 0) ini) (.configWhileEnabled .rdbal) = true
      ∧ faults (exec (.wrRdbah 0) ini) (.configWhileEnabled .rdbah) = true
      ∧ faults (exec (.wrRdlen 0) ini) (.configWhileEnabled .rdlen) = true := by decide

/-- Steps 18 to 21 of P1, and V-R8. -/
theorem test_receive_writes :
    next (exec (.wrRdbal 0x00101000) State.reset) (fun t => t.rdbal == 0x00101000) = true
      ∧ next (exec (.wrRdbah 1) State.reset) (fun t => t.rdbah == 1) = true
      ∧ next (exec (.wrRdlen 0x80) State.reset) (fun t => t.rdlen == 0x80) = true
      ∧ next (exec (.wrRdh 7) prog) (fun t => t.rdh == 7) = true
      ∧ next (exec (.wrRal0 0x12005452) ini) (fun t => t.ral0 == 0x12005452) = true
      ∧ next (exec (.wrRah0 0x80005634) ini) (fun t => t.rah0 == 0x80005634) = true := by decide

/-- V-L1. -/
theorem test_rdIcr :
    next (exec .rdIcr { ini with icr := 0x84 }) (fun t => t.word == 0x84 && t.icr == 0 && t.history == [.drain 0x84]) = true := by
  decide

/-- V-L2, V-L3, V-L5. -/
theorem test_wrIcr_wrIcs :
    next (exec (.wrIcr 0x80) { ini with icr := 0x84 }) (fun t => t.icr == 0x04) = true
      ∧ next (exec (.wrIcs 0x80) State.reset) (fun t => t.icr == 0x80 && !t.line) = true
      ∧ next (exec (.wrIcs 0xFFFFFFFF) State.reset) (fun t => t.icr == 0x0001FFFF) = true := by decide

/-- V-L4, V-L6, V-L7, V-L8. -/
theorem test_mask :
    next (exec (.wrIms 0x80) { State.reset with icr := 0x80 }) (fun t => t.mask == 0x80 && t.line) = true
      ∧ next (exec (.wrImc 0x80) { ini with icr := 0x80 }) (fun t => t.mask == 0 && !t.line && t.icr == 0x80) = true
      ∧ next (exec .rdIms { ini with mask := 0x81 }) (fun t => t.r == 0x81) = true
      ∧ State.line { ini with icr := 0x04 } = false := by decide

/-- R395, R400: a read of ICS or IMC changes nothing but the value read and the number of draws. -/
theorem test_rdIcs_rdImc :
    [Instr.rdIcs, .rdImc].all (fun i =>
      next (exec i ini) (fun t => decide ({ t with r := 0, draws := 0 } = { ini with r := 0, draws := 0 }))) = true := by decide

/-! ### EEPROM (2.8) -/

/-- V-EE1 to V-EE3 and V-EE5: a START write, F14 while busy, and a write without START. -/
theorem test_wrEerd :
    next (exec (.wrEerd 0x00000201) State.reset) (fun t => t.eerdAddr == 2 && !t.eerdDone && t.eeBusy) = true
      ∧ faults (exec (.wrEerd 0x00000101) { ini with eeBusy := true }) (.eepromBusy 0x101) = true
      ∧ next (exec (.wrEerd 0x00000500) { ini with eerdDone := true, eerdData := 0x5452 })
          (fun t => t.eerdAddr == 5 && t.eerdDone && t.eerdData == 0x5452 && !t.eeBusy) = true := by decide

/-- V-EE1's read 0x54520010 + b and P1's 0x12000110 + b: DATA, ADDR and DONE; only the START bit is drawn. -/
theorem test_rdEerd :
    (∀ b : BitVec 1, eerdValue 0x5452 0 true b = 0x54520010#32 + b.setWidth 32 ∧ eerdValue 0x1200 1 true b = 0x12000110#32 + b.setWidth 32)
      ∧ next (exec .rdEerd ini) (fun t => decide ({ t with r := 0, draws := 0 } = { ini with r := 0, draws := 0 })) = true := by
  decide

/-- The unit's step ends the read (R364). -/
theorem test_eeprom_step :
    (eepromStep { ini with eeBusy := true, eerdAddr := 64 }).eerdDone = true
      ∧ (eepromStep { ini with eeBusy := true, eerdAddr := 64 }).eeBusy = false := by decide

/-! ### The transmit engine (2.3) -/

/-- V-E1: the frame is emitted and the head advances. -/
theorem test_txd :
    next (runTurn .txEngine tx1) (fun t => t.tdh == 1 && t.txAccum == [] && t.history.length == 1 && !t.marked) = true := by decide

/-- V-E1's status byte bbbbbbb1: bit 0 is DD, bits 7:1 are the draw. -/
theorem test_txd_status : ∀ d : BitVec 7, (txStatus d).getLsbD 0 = true ∧ (txStatus d).extractLsb' 1 7 = d := by decide

/-- V-E2, the first step of V-E14 and V-E15. -/
theorem test_txd_forms :
    next (exec (.txd { desc1 with cmd := 0x01 }) tx1) (fun t => t.tdh == 1 && t.mem == tx1.mem) = true
      ∧ next (exec (.txd { desc1 with cmd := 0x08, length := 10 }) tx1)
          (fun t => t.txAccum == List.replicate 10 0 && t.history == [] && t.tdh == 1) = true
      ∧ next (exec (.txd desc1) { tx1 with tdh := 7, tdt := 0 }) (fun t => t.tdh == 0) = true := by decide

/-- V-E5, V-E6, V-E9 to V-E11, V-E13. -/
theorem test_txd_stops :
    faults (exec (.txd { desc1 with length := 0 }) tx1) (.badTxLength 0) = true
      ∧ faults (exec (.txd { desc1 with length := 16289 }) tx1) (.badTxLength 0) = true
      ∧ [0x0D, 0x19, 0x49].all (fun c => refuses (exec (.txd { desc1 with cmd := c }) tx1) (.unmodelledDescriptorField 0)) = true
      ∧ faults (exec (.txd { desc1 with bufferAddr := 0x00900000 }) tx1) (.dmaUnmapped 0x00900000 .tx 0) = true := by decide

/-- V-E8, V-E12: DEXT is checked first. -/
theorem test_txdExt :
    refuses (runTurn .txEngine { tx1 with mem := [(0x00100002, 0x20), (0x00100008, 60), (0x0010000B, 0x29)] }) (.extendedDescriptor 0)
        = true
      ∧ refuses (runTurn .txEngine { tx1 with mem := [(0x00100002, 0x20), (0x00100008, 60), (0x0010000B, 0x2D)] })
          (.extendedDescriptor 0) = true := by decide

/-- V-E16. -/
theorem test_tx_disabled : next (runTurn .txEngine { tx1 with tctl := 0x00040008 }) (fun t => t.tdh == 0 && t.history == []) = true := by
  decide

/-! ### Host memory (V-E17 to V-E20) -/

theorem test_ld :
    next (exec (.ld .two 0x00100008) tx1) (fun t => t.r == 60) = true
      ∧ next (exec (.ld .one 0x0010000C) tx1) (fun t => t.r == 0) = true
      ∧ faults (exec (.ld .one 0x00200000) tx1) (.ownershipRace 0x00200000) = true
      ∧ next (exec (.ld .one 0x0020003C) tx1) (fun t => !t.marked) = true
      ∧ refuses (exec (.ld .four 0x00100002) tx1) (.hostAccessUnmapped 0x00100002) = true
      ∧ refuses (exec (.ld .one 0x00900000) tx1) (.hostAccessUnmapped 0x00900000) = true := by decide

theorem test_st :
    faults (exec (.st .one 0x0010000C 0) tx1) (.ownershipRace 0x0010000C) = true
      ∧ next (exec (.st .two 0x00100018 0x1234) tx1)
          (fun t => memGet t.mem 0x00100018 == 0x34 && memGet t.mem 0x00100019 == 0x12) = true
      ∧ next (exec (.st .one 0x00100002 0) ini) (fun t => t.mem == [(0x0010000C, 1), (0x00101002, 0x30)]) = true := by decide

theorem test_copy :
    next (exec (.copy 0x00200801 [1, 2]) tx1) (fun t => memGet t.mem 0x00200801 == 1 && memGet t.mem 0x00200802 == 2) = true
      ∧ faults (exec (.copy 0x0020003B [1, 2]) tx1) (.ownershipRace 0x0020003B) = true
      ∧ refuses (exec (.copy 0x00203FFF [1, 2]) tx1) (.hostAccessUnmapped 0x00203FFF) = true := by decide

/-! ### Pseudo-operations (2.10) -/

/-- V-P1. -/
theorem test_setBits :
    next (exec (.setBits 0x400 2) { prog with tctl := 0x00040008 })
      (fun t => t.word == 0x00040008 && t.code == [.access ⟨32, true, 0x400, 0x0004000A⟩]) = true := by decide

/-- V-P2. -/
theorem test_clearBits :
    next (exec (.clearBits 0x100 2) ini) (fun t => t.code == [.access ⟨32, true, 0x100, 0x04000000⟩]) = true := by decide

/-- V-P3, V-P4, V-P5. -/
theorem test_writeField :
    next (exec (.writeField 0x400 0x003FF000 12 0x40) { prog with tctl := 0xA })
        (fun t => t.code == [.access ⟨32, true, 0x400, 0x0004000A⟩]) = true
      ∧ next (exec (.writeField 0x400 0x003FF000 12 0x400) { prog with tctl := 0xA })
          (fun t => t.code == [.access ⟨32, true, 0x400, 0x0000000A⟩]) = true
      ∧ refuses (exec (.writeField 0x400 0xF 32 1) prog) (.pseudoOpShiftOutOfRange 32) = true := by decide

/-- V-P6: the read of ICR drains. -/
theorem test_setBits_icr :
    next (exec (.setBits 0xC0 0) { ini with icr := 0x80 })
      (fun t => t.icr == 0 && t.history == [.drain 0x80] && t.code == [.access ⟨32, true, 0xC0, 0x80⟩]) = true := by decide

/-! ### Arrival and the receive engine (2.5, 2.6) -/

/-- V-F1 to V-F4, V-F6 to V-F8. -/
theorem test_filter :
    filter frame ini = .accept ∧ filter ([0x52, 0x54, 0, 0x12, 0x34, 0x57] ++ frame.drop 6) ini = .drop
      ∧ filter (List.replicate 64 0xFF) ini = .drop ∧ filter (List.replicate 64 0xFF) { ini with rctl := 0x04008002 } = .accept
      ∧ filter ([1, 0, 0x5E, 0, 0, 1] ++ frame.drop 6) ini = .either
      ∧ filter frame { ini with rah0 := 0x00005634 } = .drop ∧ filter frame { ini with rah0 := 0x80015634 } = .refused
      ∧ filter frame { ini with rah0 := 0x00015634 } = .drop := by decide

/-- V-A1, V-A2 and V-A3's length drops. -/
theorem test_arrival_drops :
    (rxArrive frame true prog).history = [.rxDrop frame .disabled] ∧ (rxArrive frame false ini).history = [.rxDrop frame .badFcs]
      ∧ (rxArrive (frame.drop 1) true ini).history = [.rxDrop (frame.drop 1) .length] := by decide

/-- V-RX1: the head, the timer, the queue. -/
theorem test_rxd :
    next (runTurn .rxEngine rx1) (fun t => t.rdh == 1 && t.rxTimerArmed && t.rxFifo == [] && !t.marked) = true := by decide

/-- V-RX1 and V-RX2: what is stored, and the length and status bytes written back. -/
theorem test_rxd_bytes :
    storedBytes 0x04000002 frame = frame.take 60 ∧ storedBytes 0x00000002 frame = frame
      ∧ (rxWriteBackBytes 60 0).take 2 = [0x3C, 0] ∧ (rxWriteBackBytes 64 0).take 2 = [0x40, 0]
      ∧ (rxWriteBackBytes 60 0).getD 4 0 = rxStatus (Config.draw 6 2) ∧ (rxWriteBackBytes 60 0).length = 8
      ∧ ∀ d : BitVec 6, (rxStatus d).extractLsb' 0 2 = 3 ∧ (rxStatus d).extractLsb' 2 6 = d :=
  ⟨by decide, by decide, by decide, by decide, rfl, rfl, by decide⟩

/-- V-RX3, V-RX5, V-RX6; and R321's write-back into a byte that is not in `MEM`. -/
theorem test_rxd_forms :
    refuses (exec (.rxd rdesc) { rx1 with rctl := 0x04030002, rxFifo := [List.replicate 300 0] }) (.rxFrameExceedsBuffer 296) = true
      ∧ next (exec (.rxd rdesc) { rx1 with rdh := 7, rdt := 6 }) (fun t => t.rdh == 0) = true
      ∧ faults (exec (.rxd { rdesc with bufferAddr := 0x00900000 }) rx1) (.dmaUnmapped 0x00900000 .rx 0) = true
      ∧ faults (exec (.rxd rdesc) { rx1 with memMap := [(0x00101000, 15), (0x00300000, 0x4000)] }) (.dmaUnmapped 0x0010100F .rx 0) = true := by
  decide +kernel

/-- V-RX4: nothing owned, the frame waits; V-RX8: the timer's step. -/
theorem test_rx_idle_and_timer :
    next (runTurn .rxEngine { rx1 with rdh := 3, rdt := 3 }) (fun t => t.rxFifo == [frame] && t.rdh == 3) = true
      ∧ (rxTimerStep { ini with rxTimerArmed := true }).icr = 0x80 ∧ (rxTimerStep { ini with rxTimerArmed := true }).line = true := by
  decide

/-! ### The host's duties (2.4, 2.7, 2.11) -/

/-- V-H1: the accesses of a transmit after DD(0) and DD(1) were read set. -/
theorem test_transmit_accesses :
    next (transmitQueue [1, 2, 3] 0 { ini with r := 1 }) (fun t => readBytes t.mem 0x00200000 3 == [1, 2, 3]
      && t.code == [.op (.st .two 0x00100008 3), .op (.st .one 0x0010000B 9), .op (.st .one 0x0010000C 0),
          .access ⟨32, true, 0x03818, 1⟩, .ret .ok]) = true := by decide

/-- V-H2, V-H3, V-HR1: rejected before any access. -/
theorem test_caller_errors :
    next (transmitStart [] ini) (fun t => t.results == [.oversizedPacket] && t.code == []) = true
      ∧ next (transmitStart (List.replicate 1518 0) ini) (fun t => t.results == [.oversizedPacket] && t.code == []) = true
      ∧ next (receiveStart 2047 ini) (fun t => t.results == [.bufferTooSmall] && t.code == []) = true := by decide +kernel

/-- V-B5 and delivery: entry saves the position and starts the bridge. -/
theorem test_delivery :
    (deliverStep false { ini with icr := 0x80, ie := false }).ctx = .thread
      ∧ (deliverStep false { ini with icr := 0x80, code := [.ret .ok] }).code = [.bridge]
      ∧ (deliverStep false { ini with icr := 0x80, code := [.ret .ok] }).saved = [.ret .ok] := by decide

/-- V-B3's last step: a received frame is delivered and the registration cleared. -/
theorem test_bridge_complete :
    (bridgeComplete { ini with ctx := .irq, blocked := some ⟨1, 2048⟩, results := [.received 2 [5, 6]] }).history = [.deliver 2 [5, 6]]
      ∧ (bridgeComplete { ini with ctx := .irq, blocked := some ⟨1, 2048⟩, results := [.received 2 [5, 6]] }).blocked = none
      ∧ (bridgeComplete { ini with ctx := .irq, blocked := some ⟨1, 2048⟩, results := [.ringEmpty] }).blocked = some ⟨1, 2048⟩ := by
  decide

/-- V-B4. -/
theorem test_blocking_rejected :
    (blockingStart ⟨2, 2048⟩ { ini with blocked := some ⟨1, 2048⟩ }).results = [.rejected] := by decide

/-- S8-5: the station address of the common setting, and the filter values of P1. -/
theorem test_station_address :
    stationAddress 0x5452 0x1200 0x5634 = 0x563412005452 ∧ ralOf 0x563412005452 = 0x12005452
      ∧ rahOf 0x563412005452 = 0x80005634 := by decide

/-- P1, steps 1 to 7 and 18 to 24. -/
theorem test_initialisation_accesses :
    initTransmit drv0 = [wrReg .tdbal 0x00100000, wrReg .tdbah 0, wrReg .tdlen 0x80, wrReg .tdh 0, wrReg .tdt 0,
        wrReg .tctl 0x0004000A, wrReg .tipg 0x0060200A]
      ∧ initReceive drv0 = [wrReg .rdbal 0x00101000, wrReg .rdbah 0, wrReg .rdlen 0x80, wrReg .rdh 0, wrReg .rdt 7,
          wrReg .rctl 0x04000002] := by decide

/-- Section 0's rings and buffers are placed as R714 says. -/
theorem drv0_placed : wellPlaced map0 drv0 = true :=
  wellPlaced_of_ranges (by decide) (by decide) (by decide)

/-- Rings within R8's bounds and R714's placement are constructed, by 16 writes with `ie` false. -/
theorem test_constructRings :
    (callDuty (.constructRings drv0) prog).code.length = 17 ∧ (callDuty (.constructRings drv0) prog).ie = false
      ∧ (callDuty (.constructRings drv0) { prog with drv := State.reset.drv }).drv = drv0 := by
  refine ⟨?_, ?_, ?_⟩ <;> rw [callDuty, constructRings, if_pos (by rw [Bool.and_eq_true]; exact ⟨by decide, drv0_placed⟩)] <;> rfl

/-- N_TX = 5, N_RX = 0, EE_POLL_LIMIT = 0, a ring at no multiple of 4096, seven buffers and a buffer partly outside `MEM` are
not. -/
theorem test_constructRings_refuses :
    [{ drv0 with nTx := 5 }, { drv0 with nRx := 0 }, { drv0 with eePollLimit := 0 }, { drv0 with txRing := 0x00100010 },
      { drv0 with txBuf := drv0.txBuf.tail }, { drv0 with txBuf := bufs 0x00203FFF }].all (fun plan =>
        decide (callDuty (.constructRings plan) ini = ini)) = true := by decide

/-- Regions that touch do not overlap; regions that share a byte do. -/
theorem test_disjointRegions :
    disjointRegions [(0x10, 16), (0x20, 1), (0xF, 1)] = true ∧ disjointRegions [(0x10, 16), (0x1F, 1)] = false := by decide

/-- R715: the initial descriptors of section 0. -/
theorem test_initial_descriptors :
    txInitial 0x00200000 = [0, 0, 0x20, 0, 0, 0, 0, 0, 0, 0, 0, 0, 1, 0, 0, 0]
      ∧ rxInitial 0x00300000 = [0, 0, 0x30, 0, 0, 0, 0, 0, 0, 0, 0, 0, 0, 0, 0, 0] := by decide

/-! ### The hypotheses of the statements are met

Each theorem shows, for the statement it is named after, operands and a state meeting the hypotheses of each clause, with
boundary values. -/

/-- In a state whose memory map is the whole space every access is in `MEM`. -/
theorem inMem_all (s : State) (h : s.memMap = [(0, 2 ^ 64)]) (a : Addr) (n : Nat) : InMem s a n := by
  intro k _
  refine ⟨(0, 2 ^ 64), by rw [h]; exact List.mem_singleton.2 rfl, Nat.zero_le _, ?_⟩
  simpa using (a + BitVec.ofNat 64 k).isLt

/-- The invariant of a state with nothing enabled, queued or marked. -/
theorem inv_quiet (s : State) (hm : s.mem = []) (hi : s.icr = 0) (hk : s.mask = 0) (hf : s.fault = none) (ht : s.tctl = 0) (hr : s.rctl = 0)
    (hq : s.rxFifo = []) (he : s.eeBusy = false) (hs : s.saved = []) (hd : s.drv = State.reset.drv) : s.Inv where
  mem := by rw [hm]; rfl
  icr := by rw [hi]; decide
  mask := by rw [hk]; decide
  oneMark := .inl hf
  txRing := by intro _; rw [ht]; rfl
  rxRing := by intro _; rw [hr]; rfl
  txRefused := by intro _ h; rw [ht] at h; cases h
  rxRefused := by intro _ h; rw [hr] at h; cases h
  fifo := by rw [hq]; exact Nat.zero_le _
  frames := by rw [hq]; intro f h; cases h
  eeprom := by rw [he]; intro h; cases h
  saved := fun _ => hs
  params := by rw [hd]; decide
  placed := .inl hd

/-- Every descriptor field all ones, but DEXT as the row has it; the last aligned addresses; the largest shift. -/
theorem test_hyps_DecodeOfEncodeIsTheInstruction :
    WellFormed .rdIcr ∧ WellFormed (.wrTctl 0xFFFFFFFF)
      ∧ WellFormed (.txd ⟨0xFFFFFFFFFFFFFFFF, 0xFFFF, 0xFF, 0xDF, 0xF, 0xF, 0xFF, 0xFFFF⟩)
      ∧ WellFormed (.txdExt ⟨0xFFFFFFFFFFFFFFFF, 0xFFFF, 0xFF, 0xFF, 0xF, 0xF, 0xFF, 0xFFFF⟩)
      ∧ WellFormed (.rxd ⟨0xFFFFFFFFFFFFFFFF, 0xFFFF, 0xFFFF, 0xFF, 0xFF, 0xFFFF⟩)
      ∧ WellFormed (.ld .eight 0xFFFFFFFFFFFFFFF8) ∧ WellFormed (.st .eight 0xFFFFFFFFFFFFFFF8 0xFFFFFFFFFFFFFFFF)
      ∧ WellFormed (.st .one 0xFFFFFFFFFFFFFFFF 0xFF) ∧ WellFormed (.copy 0 []) ∧ WellFormed (.setBits 0x5404 0xFFFFFFFF)
      ∧ WellFormed (.clearBits 8 0) ∧ WellFormed (.writeField 0x3818 0xFFFFFFFF 31 0xFFFFFFFF) := by decide

/-- A read with no data, a write, and a transmit descriptor of all ones. -/
theorem test_hyps_EncodeOfDecodeIsTheCode :
    (decode (.access ⟨32, false, 0x000C0, 0⟩) = .ok .rdIcr
      ∧ ∀ a, Code.access ⟨32, false, 0x000C0, 0⟩ = .access a → a.write = false → a.data = 0)
    ∧ (decode (.access ⟨32, true, 0x05404, 0xFFFFFFFF⟩) = .ok (.wrRah0 0xFFFFFFFF)
      ∧ ∀ a, Code.access ⟨32, true, 0x05404, 0xFFFFFFFF⟩ = .access a → a.write = false → a.data = 0)
    ∧ (decode (.txDesc (BitVec.allOnes 128)) = .ok (.txdExt ⟨0xFFFFFFFFFFFFFFFF, 0xFFFF, 0xFF, 0xFF, 0xF, 0xF, 0xFF, 0xFFFF⟩)
      ∧ ∀ a, Code.txDesc (BitVec.allOnes 128) = .access a → a.write = false → a.data = 0) := by
  refine ⟨⟨by decide, ?_⟩, ⟨by decide, ?_⟩, ⟨by decide, ?_⟩⟩
  · intro a h _; cases h; rfl
  · intro a h w; cases h; cases w
  · intro a h; cases h

/-- The values where the clauses meet: 16 bits wide at a bad offset; 2, 0x20001 and 0x1FFFC; the last register. -/
theorem test_hyps_AccessChecksInOrder :
    (16 ≠ 32) ∧ (0x20001 % 4 ≠ 0 ∧ 2 % 4 ≠ 0) ∧ (0x20000 % 4 = 0 ∧ 0x20000 ≤ 0x20000)
      ∧ (0x1FFFC % 4 = 0 ∧ 0x1FFFC < 0x20000 ∧ ∀ r : Reg, r.offset ≠ 0x1FFFC) ∧ (∀ r : Reg, r.offset ≠ 0)
      ∧ 0x05404 = Reg.rah0.offset := by
  refine ⟨by decide, by decide, by decide, ⟨by decide, by decide, ?_⟩, ?_, rfl⟩ <;> (intro r; cases r <;> decide)

/-- A host access, a host operation, a transmit and a receive descriptor at the engines' heads. -/
theorem test_hyps_StepRunsTheDecodedInstruction :
    ((hostWith (.access ⟨32, false, 0x000C0, 0⟩) ini).Unmarked ∧ (hostWith (.access ⟨32, false, 0x000C0, 0⟩) ini).turn = .host
      ∧ (hostWith (.access ⟨32, false, 0x000C0, 0⟩) ini).code = [.access ⟨32, false, 0x000C0, 0⟩]
      ∧ decode (.access ⟨32, false, 0x000C0, 0⟩) = .ok .rdIcr)
    ∧ ((hostWith (.op (.ld .one 0)) ini).turn = .host ∧ (hostWith (.op (.ld .one 0)) ini).code = [.op (.ld .one 0)])
    ∧ (State.turn { tx1 with agenda := [.txEngine] } = .txEngine ∧ State.txCanStep { tx1 with agenda := [.txEngine] } = true
      ∧ InMem { tx1 with agenda := [.txEngine] } (txDescAddr tx1 tx1.tdh.toNat) 16)
    ∧ (State.turn { rx1 with agenda := [.rxEngine] } = .rxEngine ∧ State.rxCanStep { rx1 with agenda := [.rxEngine] } = true
      ∧ InMem { rx1 with agenda := [.rxEngine] } (rxDescAddr rx1 rx1.rdh.toNat) 8
      ∧ (storedBytes rx1.rctl (rx1.rxFifo.headD [])).length ≤ rxBufferSize rx1.rctl) := by
  unfold InMem; decide

/-- An unmarked, a faulted and a refused state. -/
theorem test_hyps_MarkedStateIsQuiescent :
    State.reset.fault = none ∧ State.reset.refused = none
      ∧ (raise (.eepromBusy 1) .host State.reset).fault = some ⟨.eepromBusy 1, .host, 0⟩
      ∧ (refuse (.writeToReadOnly 1) .host State.reset).refused = some ⟨.writeToReadOnly 1, .host, 0⟩
      ∧ (refuse (.writeToReadOnly 1) .host State.reset).fault = none
      ∧ (refuse (.writeToReadOnly 1) .host State.reset).marked = true := by decide

/-- A refused write of STATUS, and the stores of TCTL and RCTL that fault (F7), as instructions and as steps. -/
theorem test_hyps_FaultsArePrecise :
    (State.reset.Unmarked ∧ (∃ t, exec (.wrStatus 0) State.reset = .next t ∧ t.marked = true)
      ∧ (∃ t, exec (.wrTctl 2) State.reset = .next t ∧ t.marked = true) ∧ ∃ t, exec (.wrRctl 2) State.reset = .next t ∧ t.marked = true)
    ∧ (∃ t, step (hostWith (.access ⟨32, true, 0x00008, 0⟩) State.reset) = .next t ∧ t.marked = true)
    ∧ (∃ t, step (hostWith (.access ⟨32, true, 0x00400, 2⟩) State.reset) = .next t ∧ t.marked = true)
    ∧ (∃ t, step (hostWith (.access ⟨32, true, 0x00100, 2⟩) State.reset) = .next t ∧ t.marked = true) :=
  ⟨⟨rfl, ⟨_, rfl, rfl⟩, ⟨_, rfl, rfl⟩, ⟨_, rfl, rfl⟩⟩, ⟨_, rfl, rfl⟩, ⟨_, rfl, rfl⟩, ⟨_, rfl, rfl⟩⟩

/-- An enabled ring with the device at work, and a step from it. -/
theorem test_hyps_StepKeepsInvariant :
    (State.Inv { rx1 with agenda := [.rxEngine] } ∧ ∃ t, step { rx1 with agenda := [.rxEngine] } = .next t ∧ t.rdh = 1)
      ∧ (State.Inv { tx1 with agenda := [.txEngine] } ∧ ∃ t, step { tx1 with agenda := [.txEngine] } = .next t ∧ t.tdh = 1) := by
  refine ⟨⟨⟨rfl, by decide, by decide, .inl rfl, by decide, by decide, by decide, by decide, ?_, by decide, by decide, by decide,
    by decide, .inr drv0_placed⟩, _, rfl, rfl⟩, ⟨⟨rfl, by decide, by decide, .inl rfl, by decide, by decide, by decide, by decide, ?_,
    by decide, by decide, by decide, by decide, .inr drv0_placed⟩, _, rfl, rfl⟩⟩
  · exact Nat.le_add_left 1 Config.rxFifoExtra
  · exact Nat.zero_le _

/-- The least and the greatest legal length, and illegal ones on each side of every condition. -/
theorem test_hyps_LegalLengthsMakeRings :
    Legal 0x80 ∧ Legal 0xFFF80 ∧ ¬ Legal 0 ∧ ¬ Legal 0x40 ∧ ¬ Legal 0x100000 ∧ ¬ Legal 0xFFFC0 := by unfold Legal; decide

/-- Disabled and enabled; a misaligned base; the least illegal length and a nonzero cursor. -/
theorem test_hyps_TransmitBaseAndLengthAccess :
    prog.tctl.getLsbD 1 = false ∧ ini.tctl.getLsbD 1 = true
      ∧ (let s := { prog with tdbal := 0x00100008 };
        Legal s.tdlen ∧ s.tdbal.toNat % 16 ≠ 0 ∧ (2 : Word).getLsbD 1 = true)
      ∧ (¬ Legal State.reset.tdlen ∧ (2 : Word).getLsbD 1 = true ∧ (1 : Word) ≠ 0 ∧ State.reset.tctl.getLsbD 1 = false) := by
  unfold Legal; decide

theorem test_hyps_ReceiveBaseAndLengthAccess :
    prog.rctl.getLsbD 1 = false ∧ ini.rctl.getLsbD 1 = true
      ∧ (let s := { prog with rdbal := 0x00101001 };
        Legal s.rdlen ∧ s.rdbal.toNat % 16 ≠ 0 ∧ (2 : Word).getLsbD 1 = true)
      ∧ (¬ Legal State.reset.rdlen ∧ (2 : Word).getLsbD 1 = true ∧ (1 : Word) ≠ 0 ∧ State.reset.rctl.getLsbD 1 = false) := by
  unfold Legal; decide

/-- Enabled; N, 0x10000 and 1 without a ring; N - 1, and 0 without a ring. -/
theorem test_hyps_HeadAccess :
    (ini.tctl.getLsbD 1 = true ∧ ini.rctl.getLsbD 1 = true) ∧ (prog.tctl.getLsbD 1 = false ∧ prog.rctl.getLsbD 1 = false)
      ∧ (Legal prog.tdlen ∧ (8 : Word).toNat ≥ size prog.tdlen ∧ (7 : Word).toNat < size prog.tdlen)
      ∧ (Legal prog.rdlen ∧ (8 : Word).toNat ≥ size prog.rdlen ∧ (7 : Word).toNat < size prog.rdlen)
      ∧ (0x10000 : Word).toNat ≥ 0x10000
      ∧ (¬ Legal State.reset.tdlen ∧ ¬ Legal State.reset.rdlen ∧ (1 : Word) ≠ 0)
      ∧ (State.reset.tctl.getLsbD 1 = false ∧ State.reset.rctl.getLsbD 1 = false) := by unfold Legal size; decide

/-- N, 0x10000 and 1 without a ring; N - 1, the greatest ring's last index, and 0 without a ring; the tail onto the head. -/
theorem test_hyps_TailAccess :
    (Legal ini.tdlen ∧ (8 : Word).toNat ≥ size ini.tdlen ∧ (7 : Word).toNat < size ini.tdlen)
      ∧ (Legal ini.rdlen ∧ (8 : Word).toNat ≥ size ini.rdlen ∧ (7 : Word).toNat < size ini.rdlen)
      ∧ (0x10000 : Word).toNat ≥ 0x10000 ∧ (¬ Legal State.reset.tdlen ∧ ¬ Legal State.reset.rdlen ∧ (1 : Word) ≠ 0)
      ∧ (Legal 0xFFF80 ∧ (65527 : Word).toNat < size 0xFFF80)
      ∧ ((0 : Word).setWidth 16 = ini.tdt ∧ (7 : Word).setWidth 16 = ini.rdt ∧ (0 : Word).setWidth 16 = ini.tdh
        ∧ (0 : Word).setWidth 16 = ini.rdh)
      ∧ (ini.tdh = 0 ∧ ini.rdh = 0 ∧ size ini.rdlen = 8) := by unfold Legal size; decide

/-- EN = 0; each check failing first: no ring, a misaligned base, head N, tail N, each refused bit's edge; all passing. -/
theorem test_hyps_TransmitControlAccess :
    (0x00040008 : Word).getLsbD 1 = false ∧ (2 : Word).getLsbD 1 = true ∧ ¬ Legal State.reset.tdlen
      ∧ (let s := { prog with tdbal := 0x00100008 };
        Legal s.tdlen ∧ s.tdbal.toNat % 16 ≠ 0)
      ∧ (let s := { prog with tdh := 8 };
        Legal s.tdlen ∧ s.tdbal.toNat % 16 = 0 ∧ size s.tdlen ≤ s.tdh.toNat)
      ∧ (let s := { prog with tdt := 8 };
        Legal s.tdlen ∧ s.tdbal.toNat % 16 = 0 ∧ s.tdh.toNat < size s.tdlen ∧ size s.tdlen ≤ s.tdt.toNat)
      ∧ (GoodRing prog.txRing ∧ prog.tdbal.toNat % 16 = 0 ∧ (0x00400002 : Word) &&& 0xFFC00005#32 ≠ 0 ∧ (3 : Word) &&& 0xFFC00005#32 ≠ 0
        ∧ (0x003FFFFA : Word) &&& 0xFFC00005#32 = 0) := by
  unfold GoodRing Legal size; decide

theorem test_hyps_ReceiveControlAccess :
    (0x04000000 : Word).getLsbD 1 = false ∧ (2 : Word).getLsbD 1 = true ∧ ¬ Legal State.reset.rdlen
      ∧ (let s := { prog with rdbal := 0x00101008 };
        Legal s.rdlen ∧ s.rdbal.toNat % 16 ≠ 0)
      ∧ (let s := { prog with rdh := 8 };
        Legal s.rdlen ∧ s.rdbal.toNat % 16 = 0 ∧ size s.rdlen ≤ s.rdh.toNat)
      ∧ (let s := { prog with rdt := 8 };
        Legal s.rdlen ∧ s.rdbal.toNat % 16 = 0 ∧ s.rdh.toNat < size s.rdlen ∧ size s.rdlen ≤ s.rdt.toNat)
      ∧ (GoodRing prog.rxRing ∧ prog.rdbal.toNat % 16 = 0 ∧ (3 : Word) &&& 0xFBEC4CFD#32 ≠ 0 ∧ (0x80000002 : Word) &&& 0xFBEC4CFD#32 ≠ 0
        ∧ (0x0413B302 : Word) &&& 0xFBEC4CFD#32 = 0) := by
  unfold GoodRing Legal size; decide

/-- Nothing latched. -/
theorem test_hyps_DrainReturnsAndClears : State.reset.icr = 0 := by decide

/-- Writes of 0 that go to a next state; a masked cause; a latched cause enabled; a mask of cause bits. -/
theorem test_hyps_CauseWritesSetAndClear :
    (∃ t, exec (.wrIcr 0) ini = .next t) ∧ (∃ t, exec (.wrIcs 0) ini = .next t)
      ∧ ((0x04 : Word) &&& 0x0001FFFF#32 &&& ini.mask = 0 ∧ ∃ t, exec (.wrIcs 0x04) ini = .next t)
      ∧ (State.icr { ini with icr := 0x04 } &&& ((0x04 : Word) &&& 0x0001FFFF#32) ≠ 0
        ∧ ∃ t, exec (.wrIms 0x04) { ini with icr := 0x04 } = .next t)
      ∧ (ini.mask &&& ~~~0x0001FFFF#32 = 0 ∧ ∃ t, exec (.wrImc 0xFFFFFFFF) ini = .next t) :=
  ⟨⟨_, rfl⟩, ⟨_, rfl⟩, ⟨by decide, _, rfl⟩, ⟨by decide, _, rfl⟩, ⟨by decide, _, rfl⟩⟩

/-- A state with the invariant. -/
theorem test_hyps_MaskAndDrawnReads : State.reset.Inv := inv_quiet _ rfl rfl rfl rfl rfl rfl rfl rfl rfl rfl

/-- Busy, idle without START, idle with START at the last and past the last word. -/
theorem test_hyps_EerdAccess :
    State.eeBusy { ini with eeBusy := true } = true ∧ ini.eeBusy = false ∧ (0x00000500 : Word).getLsbD 0 = false
      ∧ (0x00003F01 : Word).getLsbD 0 = true ∧ (0x00004001 : Word).getLsbD 0 = true := by decide

/-- A read of each kind: a stored register, a drawn one, and ICR. -/
theorem test_hyps_OnlyTheDrainReadHasASideEffect :
    (Reg.rdt ≠ .icr ∧ ∃ t, exec Reg.rdt.readInstr ini = .next t) ∧ (Reg.status ≠ .icr ∧ ∃ t, exec Reg.status.readInstr ini = .next t)
      ∧ ∃ t, exec .rdIcr ini = .next t :=
  ⟨⟨by decide, _, rfl⟩, ⟨by decide, _, rfl⟩, _, rfl⟩

/-- A write that stores, and one that faults. -/
theorem test_hyps_RegisterAccessFrame :
    ((∃ a, encode (.wrTdt 7) = .access a) ∧ ∃ t, exec (.wrTdt 7) ini = .next t ∧ t.tdt = 7)
      ∧ ((∃ a, encode (.wrTctl 2) = .access a) ∧ ∃ t, exec (.wrTctl 2) State.reset = .next t ∧ t.marked = true) :=
  ⟨⟨⟨_, rfl⟩, _, rfl, rfl⟩, ⟨⟨_, rfl⟩, _, rfl, rfl⟩⟩

/-- The last byte of a range and the first after it. -/
theorem test_hyps_MissingByteMeansNotInMem :
    firstMissing ini.memMap 0x00203FFF 2 = some 0x00204000 ∧ firstMissing ini.memMap 0x00203FFF 1 = none := by decide

/-- Each clause of a load: misaligned, unmapped, an owned buffer's last byte, the byte after it. -/
theorem test_hyps_HostLoad :
    (0x00100002 : Addr).toNat % Size.four.bytes ≠ 0 ∧ ¬ InMem tx1 0x00204000 Size.one.bytes
      ∧ ((0x0020003B : Addr).toNat % Size.one.bytes = 0 ∧ InMem tx1 0x0020003B Size.one.bytes
        ∧ tx1.ownedBufferMeets 0x0020003B Size.one.bytes = true)
      ∧ ((0x0020003C : Addr).toNat % Size.four.bytes = 0 ∧ InMem tx1 0x0020003C Size.four.bytes
        ∧ tx1.ownedBufferMeets 0x0020003C Size.four.bytes = false) := by
  unfold InMem; decide

/-- Each clause of a store and of a copy, the longest copy included. -/
theorem test_hyps_HostStoreAndCopy :
    ((0x00100019 : Addr).toNat % Size.two.bytes ≠ 0 ∧ ¬ InMem tx1 0x00100080 Size.eight.bytes)
      ∧ ((0x0010000F : Addr).toNat % Size.one.bytes = 0 ∧ InMem tx1 0x0010000F Size.one.bytes
        ∧ (tx1.ownedDescMeets 0x0010000F 1 || tx1.ownedBufferMeets 0x0010000F 1) = true)
      ∧ ((0x00100010 : Addr).toNat % Size.eight.bytes = 0 ∧ InMem tx1 0x00100010 Size.eight.bytes
        ∧ (tx1.ownedDescMeets 0x00100010 8 || tx1.ownedBufferMeets 0x00100010 8) = false)
      ∧ (([1, 2] : List Byte).length ≤ 2 ^ 64 ∧ ¬ InMem tx1 0x00203FFF ([1, 2] : List Byte).length)
      ∧ (InMem tx1 0x0020003B ([1, 2] : List Byte).length ∧ (tx1.ownedDescMeets 0x0020003B 2 || tx1.ownedBufferMeets 0x0020003B 2) = true)
      ∧ (InMem tx1 0x0020003C ([1, 2] : List Byte).length ∧ (tx1.ownedDescMeets 0x0020003C 2 || tx1.ownedBufferMeets 0x0020003C 2) = false)
      := by
  unfold InMem; decide

/-- The longest copy that the statement admits. -/
theorem test_hyps_HostStoreAndCopy_longest : (List.replicate (2 ^ 64) (0 : Byte)).length ≤ 2 ^ 64 := by
  rw [List.length_replicate]

/-- A store of all ones at the last aligned address. -/
theorem test_hyps_LoadReturnsWhatWasStored :
    State.reset.Unmarked ∧ ∃ t, exec (.st .eight 0xFFFFFFFFFFFFFFF8 0xFFFFFFFFFFFFFFFF) State.reset = .next t ∧ t.Unmarked :=
  ⟨rfl, _, rfl, rfl⟩

/-- A ring that wraps, an empty one, and both engines with a step. -/
theorem test_hyps_OwnershipIsTheCyclicInterval :
    (GoodRing ⟨0, 0x80, 7, 0⟩ ∧ (7 : Half) ≠ 0) ∧ (GoodRing ⟨0, 0x80, 7, 7⟩) ∧ GoodRing ⟨0, 0xFFF80, 65527, 0⟩
      ∧ (GoodRing tx1.txRing ∧ tx1.txCanStep = true) ∧ (GoodRing rx1.rxRing ∧ rx1.rxCanStep = true) := by
  unfold GoodRing Legal size; decide

/-- Rings that exist, and rings that do not, with cursors beyond them. -/
theorem test_hyps_OwnedRegions :
    (RingOrNone tx1.txRing ∧ RingOrNone tx1.rxRing)
      ∧ (RingOrNone (State.txRing { State.reset with tdh := 9 }) ∧ RingOrNone State.reset.rxRing)
      ∧ (tx1.ownedDescMeets 0x0010000F 1 = true ∧ tx1.ownedDescMeets 0x00100010 1 = false
        ∧ tx1.ownedBufferMeets 0x00300000 1 = true ∧ tx1.ownedBufferMeets 0x00300800 1 = false) := by
  unfold RingOrNone Legal size; decide

/-- V-E1; and the longest descriptor with neither EOP nor RS, at the end of a ring. -/
theorem test_hyps_TransmitDescriptorRuns :
    (tx1.txCanStep = true ∧ (desc1.cmd.getLsbD 2 = false ∧ desc1.cmd.getLsbD 4 = false ∧ desc1.cmd.getLsbD 6 = false)
      ∧ (0 < desc1.length.toNat ∧ desc1.length.toNat ≤ 16288) ∧ InMem tx1 desc1.bufferAddr desc1.length.toNat
      ∧ (desc1.cmd.getLsbD 3 = true → InMem tx1 (txDescAddr tx1 tx1.tdh.toNat + 12) 1))
    ∧ (let s := { tx1 with memMap := [(0, 2 ^ 64)], tdh := 7 };
      let d : TxDesc := { desc1 with cmd := 0, length := 16288, bufferAddr := 0xFFFFFFFFFFFFFFFF };
      s.txCanStep = true ∧ (d.cmd.getLsbD 2 = false ∧ d.cmd.getLsbD 4 = false ∧ d.cmd.getLsbD 6 = false)
      ∧ (0 < d.length.toNat ∧ d.length.toNat ≤ 16288) ∧ InMem s d.bufferAddr d.length.toNat
      ∧ (d.cmd.getLsbD 3 = true → InMem s (txDescAddr s s.tdh.toNat + 12) 1)) := by
  refine ⟨by unfold InMem; decide, by decide, by decide, by decide, inMem_all _ rfl _ _, fun _ => inMem_all _ rfl _ _⟩

/-- Each stop: a descriptor not in `MEM`, each refused bit, lengths 0 and 16289, a buffer not in `MEM`. -/
theorem test_hyps_TransmitDescriptorStops :
    (State.txCanStep { tx1 with tdbal := 0x00100070, tdh := 1, tdt := 0 } = true
      ∧ firstMissing map0 (txDescAddr { tx1 with tdbal := 0x00100070, tdh := 1 } 1) 16 = some 0x00100080)
    ∧ (tx1.txCanStep = true ∧ (0x0D : Byte).getLsbD 2 = true ∧ (0x19 : Byte).getLsbD 4 = true ∧ (0x49 : Byte).getLsbD 6 = true)
    ∧ (desc1.cmd.getLsbD 2 = false ∧ desc1.cmd.getLsbD 4 = false ∧ desc1.cmd.getLsbD 6 = false)
    ∧ ((0 : Half).toNat = 0 ∧ (16289 : Half).toNat > 16288)
    ∧ firstMissing tx1.memMap 0x00203FFF desc1.length.toNat = some 0x00204000 := by decide

/-- Two descriptors that differ in every unused field and in IDE. -/
theorem test_hyps_TransmitIgnoresUnusedFields :
    let e : TxDesc := ⟨0x00200000, 60, 0xFF, 0x89, 0xF, 0xF, 0xFF, 0xFFFF⟩;
    e.bufferAddr = desc1.bufferAddr ∧ e.length = desc1.length ∧ e.cmd.extractLsb' 0 7 = desc1.cmd.extractLsb' 0 7 ∧ e ≠ desc1 := by
  decide

/-- Disabled with descriptors owned; enabled with none. -/
theorem test_hyps_TransmitEngineIdle : State.tctl { tx1 with tctl := 0 } = 0 ∧ (0 : Word).getLsbD 1 = false ∧ ini.tdh = ini.tdt := by
  decide

/-- V-RX1; and a frame that fills the smallest buffer exactly, FCS kept, at the top of the address space. -/
theorem test_hyps_ReceiveDescriptorRuns :
    (rx1.rxCanStep = true ∧ rx1.rxFifo = frame :: []
      ∧ frame.take 60 = (if rx1.rctl.getLsbD 26 then frame.take (frame.length - 4) else frame)
      ∧ (frame.take 60).length ≤ 2048 / 2 ^ (rx1.rctl.extractLsb' 16 2).toNat
      ∧ InMem rx1 rdesc.bufferAddr (frame.take 60).length ∧ InMem rx1 (rxDescAddr rx1 rx1.rdh.toNat + 8) 8)
    ∧ (let f : List Byte := List.replicate 256 1;
      let s : State := { rx1 with memMap := [(0, 2 ^ 64)], rctl := 0x00030002, rxFifo := [f, frame] };
      let d : RxDesc := { rdesc with bufferAddr := 0xFFFFFFFFFFFFFFFF };
      s.rxCanStep = true ∧ s.rxFifo = f :: [frame] ∧ f = (if s.rctl.getLsbD 26 then f.take (f.length - 4) else f)
      ∧ f.length ≤ 2048 / 2 ^ (s.rctl.extractLsb' 16 2).toNat
      ∧ InMem s d.bufferAddr f.length ∧ InMem s (rxDescAddr s s.rdh.toNat + 8) 8) := by
  refine ⟨by unfold InMem; decide, rfl, rfl, rfl, ?_, inMem_all _ rfl _ _, inMem_all _ rfl _ _⟩
  rw [List.length_replicate]; decide

/-- A frame one byte over the smallest buffer; a descriptor, then a buffer, not in `MEM`; then a descriptor of which the last
byte alone is not. -/
theorem test_hyps_ReceiveDescriptorStops :
    (let s := { rx1 with rctl := 0x00030002, rxFifo := [List.replicate 257 0] };
      s.rxCanStep = true ∧ s.rxFifo = List.replicate 257 0 :: [] ∧ rxBufferSize s.rctl < (storedBytes s.rctl (List.replicate 257 0)).length)
    ∧ (let s := { rx1 with rdbal := 0x00101070, rdh := 1 };
      s.rxCanStep = true ∧ s.rxFifo = frame :: [] ∧ (storedBytes s.rctl frame).length ≤ rxBufferSize s.rctl
      ∧ firstMissing s.memMap (rxDescAddr s s.rdh.toNat) 8 = some 0x00101080)
    ∧ firstMissing rx1.memMap 0x00303FFF (storedBytes rx1.rctl frame).length = some 0x00304000
    ∧ (let s := { rx1 with rdbal := 0x00101070, rdh := 0, memMap := [(0x00101070, 15), (0x00300000, 0x4000)] };
      s.rxCanStep = true ∧ s.rxFifo = frame :: [] ∧ (storedBytes s.rctl frame).length ≤ rxBufferSize s.rctl
      ∧ firstMissing s.memMap rdesc.bufferAddr (storedBytes s.rctl frame).length = none
      ∧ firstMissing s.memMap (rxDescAddr s s.rdh.toNat + 8) 8 = some 0x0010107F) := by decide +kernel

/-- Disabled, nothing owned, nothing queued. -/
theorem test_hyps_ReceiveEngineIdle : prog.rctl.getLsbD 1 = false ∧ State.rdh { rx1 with rdh := 7 } = rx1.rdt ∧ ini.rxFifo = [] := by
  decide

/-- Each outcome's conditions: disabled; a bad FCS; 63 and 1523 bytes; 64 and 1522; AS = 01; the station address; broadcast;
multicast; another station. -/
theorem test_hyps_FrameArrival :
    ini.Unmarked ∧ prog.rctl.getLsbD 1 = false ∧ ini.rctl.getLsbD 1 = true
      ∧ ((frame.drop 1).length < 64 ∧ 1522 < (List.replicate 1523 (0 : Byte)).length)
      ∧ (64 ≤ frame.length ∧ frame.length ≤ 1522 ∧ (List.replicate 1522 (0 : Byte)).length ≤ 1522)
      ∧ ((0x80015634 : Word).getLsbD 31 = true ∧ (0x80015634 : Word).extractLsb' 16 2 ≠ 0)
      ∧ (ini.rah0.getLsbD 31 = true ∧ ini.rah0.extractLsb' 16 2 = 0
        ∧ leNat (frame.take 6) = (ini.rah0.extractLsb' 0 16 ++ ini.ral0).toNat)
      ∧ (let dst : List Byte := (List.replicate 64 0xFF).take 6;
        leNat dst ≠ (ini.rah0.extractLsb' 0 16 ++ ini.ral0).toNat ∧ dst = List.replicate 6 0xFF)
      ∧ (let dst : List Byte := ([1, 0, 0x5E, 0, 0, 1] ++ frame.drop 6).take 6;
        leNat dst ≠ (ini.rah0.extractLsb' 0 16 ++ ini.ral0).toNat ∧ dst ≠ List.replicate 6 0xFF ∧ (dst.getD 0 0).getLsbD 0 = true)
      ∧ (let dst : List Byte := ([0x52, 0x54, 0, 0x12, 0x34, 0x57] ++ frame.drop 6).take 6;
        leNat dst ≠ (ini.rah0.extractLsb' 0 16 ++ ini.ral0).toNat ∧ dst ≠ List.replicate 6 0xFF ∧ (dst.getD 0 0).getLsbD 0 = false) := by
  decide +kernel

/-- A latched, enabled cause that each of the two writes takes away. -/
theorem test_hyps_LineIsALevel :
    (∃ t, exec .rdIcr { ini with icr := 0x80 } = .next t)
      ∧ (State.icr { ini with icr := 0x80 } &&& ini.mask &&& ~~~((0x80 : Word) &&& 0x0001FFFF#32) = 0
        ∧ (∃ t, exec (.wrIcr 0x80) { ini with icr := 0x80 } = .next t) ∧ ∃ t, exec (.wrImc 0x80) { ini with icr := 0x80 } = .next t) :=
  ⟨⟨_, rfl⟩, by decide, ⟨_, rfl⟩, _, rfl⟩

/-- Armed and not; busy at word 63, at word 64, and idle. -/
theorem test_hyps_UnitSteps :
    ini.Unmarked ∧ State.rxTimerArmed { ini with rxTimerArmed := true } = true ∧ ini.rxTimerArmed = false
      ∧ State.eeBusy { ini with eeBusy := true } = true ∧ (63 : BitVec 8).toNat < 64 ∧ 64 ≤ (64 : BitVec 8).toNat ∧ ini.eeBusy = false := by
  decide

/-- Both sources. -/
theorem test_hyps_Rxt0HasTwoSources :
    (∃ t, step { ini with rxTimerArmed := true, agenda := [.rxTimer] } = .next t ∧ ini.icr.getLsbD 7 = false ∧ t.icr.getLsbD 7 = true)
      ∧ (∃ t, step (hostWith (.access ⟨32, true, 0x000C8, 0x80⟩) ini) = .next t ∧ t.icr.getLsbD 7 = true) :=
  ⟨⟨_, rfl, rfl, rfl⟩, _, rfl, rfl⟩

/-- The last EEPROM word. -/
theorem test_hyps_EepromReadReturnsTheWord : ini.Unmarked ∧ ini.eeBusy = false ∧ (63 : Byte).toNat < 64 := by decide

/-- Both engines moving their heads, the transmit head across the end of its ring. -/
theorem test_hyps_DeviceMovesHeadsByOneAndNoTail :
    (let s := { tx1 with tdh := 7, tdt := 0, mem := [(0x00100072, 0x20), (0x00100078, 60), (0x0010007B, 0x01)] };
      DeviceTurn .txEngine ∧ (∃ t, runTurn .txEngine s = .next t ∧ t.tdh = 0) ∧ Legal s.tdlen)
    ∧ (DeviceTurn .rxEngine ∧ (∃ t, runTurn .rxEngine rx1 = .next t ∧ t.rdh = 1) ∧ Legal rx1.rdlen) := by
  refine ⟨⟨by unfold DeviceTurn; decide, ⟨_, rfl, rfl⟩, by unfold Legal; decide⟩, by unfold DeviceTurn; decide, ⟨_, rfl, rfl⟩,
    by unfold Legal; decide⟩

/-- A termination, a delivery and an engine's step. -/
theorem test_hyps_DeviceKeepsConfiguration :
    (DeviceTurn .terminate ∧ ∃ t, runTurn .terminate { ini with blocked := some ⟨1, 2048⟩ } = .next t ∧ t.blocked = none)
      ∧ (DeviceTurn .deliver ∧ ∃ t, runTurn .deliver { ini with icr := 0x80 } = .next t ∧ t.ctx = .irq)
      ∧ (DeviceTurn .rxEngine ∧ ∃ t, runTurn .rxEngine rx1 = .next t ∧ t.rdh = 1) := by
  refine ⟨⟨by unfold DeviceTurn; decide, _, rfl, rfl⟩, ⟨by unfold DeviceTurn; decide, _, rfl, rfl⟩,
    ⟨by unfold DeviceTurn; decide, _, rfl, rfl⟩⟩

/-- A transmit step. -/
theorem test_hyps_TipgMakesNoDifference : DeviceTurn .txEngine ∧ ∃ t, runTurn .txEngine tx1 = .next t ∧ t.tdh = 1 :=
  ⟨by unfold DeviceTurn; decide, _, rfl, rfl⟩

/-- The initialised state is final, and so is the state after reset. -/
theorem test_hyps_FinalStateIsIdle : ini.final = true ∧ State.reset.final = true := by decide

/-- Shifts 31 and 32, an offset of no register, and the queued write. -/
theorem test_hyps_PseudoOpsExpand :
    31 < 32 ∧ 32 ≤ 32 ∧ (∀ reg : Reg, reg.offset ≠ 0x1FFFC) ∧ (∀ reg : Reg, reg.offset ≠ 0x402)
      ∧ (hostWith (.access ⟨32, true, Reg.tctl.offset, 8⟩) ini).code = [.access ⟨32, true, Reg.tctl.offset, 8⟩] := by
  refine ⟨by decide, by decide, ?_, ?_, rfl⟩ <;> (intro r; cases r <;> decide)

/-- Each operation, the last admitted shift, and each kind of register: the enabled rings' controls with EN kept (every
admitted bit of TCTL set) and with EN cleared, a base and a length while disabled, and the registers written at any time. -/
theorem test_hyps_PseudoOperationTakesTwoHostSteps :
    (hostWith (.op (.setBits 0x00400 0x003FFFF8)) ini).code = [.op (.setBits 0x00400 0x003FFFF8)]
      ∧ (PseudoOn (.setBits 0x00400 0x003FFFF8) .tctl 0x003FFFFA ini ∧ WriteAdmitted .tctl 0x003FFFFA ini)
      ∧ (PseudoOn (.clearBits 0x00100 2) .rctl 0x04000000 ini ∧ WriteAdmitted .rctl 0x04000000 ini)
      ∧ (PseudoOn (.setBits 0x00100 0x8000) .rctl 0x04008002 ini ∧ WriteAdmitted .rctl 0x04008002 ini)
      ∧ (PseudoOn (.writeField 0x03808 0xFFFFFFFF 31 1) .tdlen 0x80000000 prog ∧ WriteAdmitted .tdlen 0x80000000 prog)
      ∧ (PseudoOn (.setBits 0x02800 8) .rdbal 0x00101008 prog ∧ WriteAdmitted .rdbal 0x00101008 prog)
      ∧ (PseudoOn (.setBits 0x00410 1) .tipg 1 ini ∧ WriteAdmitted .tipg 1 ini)
      ∧ (PseudoOn (.clearBits 0x05404 0x80000000) .rah0 0x00005634 ini ∧ WriteAdmitted .rah0 0x00005634 ini) := by
  unfold PseudoOn WriteAdmitted ControlAdmitted GoodRing Legal size; decide

/-- Deliverable with the line up and down; each reason for no delivery; return in both contexts. -/
theorem test_hyps_InterruptEntryAndReturn :
    (ini.Unmarked ∧ ini.ctx = .thread ∧ ini.ie = true ∧ ini.irqUnmasked = true ∧ ini.saved = [] ∧ ini.line = false)
      ∧ State.line { ini with icr := 0x80 } = true
      ∧ (State.ctx { ini with ctx := .irq } = .irq ∧ prog.ie = false ∧ prog.irqUnmasked = false)
      ∧ (State.ctx { ini with ctx := .irq } = .irq ∧ State.code { ini with ctx := .irq } = []) := by decide

theorem test_hyps_BridgeWithoutConsumerOnlyDrains :
    let s := interruptEntry { ini with icr := 0x84 };
    s.ctx = .irq ∧ s.code = [.bridge] ∧ s.blocked = none := by decide

/-- 1518 bytes, none, and a capacity of 2047 (V-H2, V-H3, V-HR1). -/
theorem test_hyps_CallerErrorsMakeNoAccess :
    (hostWith (.transmit (List.replicate 1518 0)) ini).code = [.transmit (List.replicate 1518 0)]
      ∧ ini.drv.txBufSize ≤ (List.replicate 1518 (0 : Byte)).length ∧ ([] : List Byte).length = 0
      ∧ (hostWith (.receive 2047) ini).code = [.receive 2047] ∧ 2047 < 2048 := by decide +kernel

/-- S8-1's eighth call: TDT = 7, DD(7) set, DD(0) clear; and a slot whose own DD is clear. -/
theorem test_hyps_RingFullIsReportedWithoutWrite :
    (let s := { hostWith (.transmit (List.replicate 60 0)) ini with tdt := 7, mem := [(0x0010007C, 1), (0x00101002, 0x30)] };
      s.code = [.transmit (List.replicate 60 0)] ∧ 0 < (List.replicate 60 (0 : Byte)).length
      ∧ (List.replicate 60 (0 : Byte)).length < s.drv.txBufSize
      ∧ (0x0010007C : Addr) = s.drv.txRing + BitVec.ofNat 64 (16 * s.tdt.toNat + 12)
      ∧ (0x0010000C : Addr) = s.drv.txRing + BitVec.ofNat 64 (16 * ((s.tdt.toNat + 1) % s.drv.nTx) + 12)
      ∧ InMem s 0x0010007C 1 ∧ s.ownedBufferMeets 0x0010007C 1 = false ∧ InMem s 0x0010000C 1 ∧ s.ownedBufferMeets 0x0010000C 1 = false
      ∧ (memGet s.mem 0x0010007C).getLsbD 0 = true ∧ (memGet s.mem 0x0010000C).getLsbD 0 = false)
    ∧ (memGet tx1.mem 0x0010000C).getLsbD 0 = false := by
  unfold InMem; decide +kernel

/-- V-H1: the initialised state, 60 bytes, DD(0) and DD(1) set. -/
theorem test_hyps_TransmitQueuesThePacket :
    let s := { hostWith (.transmit (List.replicate 60 7)) ini with mem := [(0x00100002, 0x20), (0x0010000C, 1), (0x0010001C, 1), (0x00101002, 0x30)] };
    let d : Addr := 0x00100000;
    let n : Nat := (List.replicate 60 (7 : Byte)).length;
    s.code = [.transmit (List.replicate 60 7)] ∧ 0 < n ∧ n < s.drv.txBufSize ∧ n < 65536 ∧ Legal s.tdlen ∧ s.drv.nTx = size s.tdlen
      ∧ d = s.drv.txRing + BitVec.ofNat 64 (16 * s.tdt.toNat) ∧ d.toNat % 16 = 0
      ∧ (0x0010001C : Addr) = s.drv.txRing + BitVec.ofNat 64 (16 * ((s.tdt.toNat + 1) % s.drv.nTx) + 12)
      ∧ 0x00200000 = s.drv.txBuf.getD s.tdt.toNat (Config.noBuffer s.steps s.tdt.toNat) ∧ InMem s d 16 ∧ InMem s 0x0010001C 1 ∧ InMem s 0x00200000 n
      ∧ s.ownedDescMeets d 16 = false ∧ s.ownedBufferMeets d 16 = false ∧ s.ownedBufferMeets 0x0010001C 1 = false
      ∧ s.ownedDescMeets 0x00200000 n = false ∧ s.ownedBufferMeets 0x00200000 n = false
      ∧ (memGet s.mem (d + 12).toNat).getLsbD 0 = true ∧ (memGet s.mem 0x0010001C).getLsbD 0 = true := by
  unfold InMem Legal size; decide +kernel

/-- V-HR2 and S8-4: the initialised state, capacity 2048, the status byte of descriptor 0. -/
theorem test_hyps_EmptyRingIsReportedWithoutWrite :
    (0x0010100C : Addr) = ini.drv.rxRing + BitVec.ofNat 64 (16 * ((ini.rdt.toNat + 1) % ini.drv.nRx) + 12)
      ∧ InMem ini 0x0010100C 1 ∧ ini.ownedBufferMeets 0x0010100C 1 = false
      ∧ ((hostWith (.receive 2048) ini).code = [.receive 2048] ∧ 2048 ≤ 2048 ∧ (memGet ini.mem 0x0010100C).getLsbD 0 = false)
      ∧ (hostWith .isEmpty ini).code = [.isEmpty] := by
  unfold InMem; decide

/-- V-HR3: descriptor 0 written back with 60 bytes, the head at 1. -/
theorem test_hyps_ReceiveReturnsTheFrame :
    let s := { hostWith (.receive 2048) ini with rdh := 1, mem := [(0x00101002, 0x30), (0x00101008, 60), (0x0010100C, 3), (0x00300000, 0x52)] };
    let d : Addr := 0x00101000;
    s.code = [.receive 2048] ∧ Legal s.rdlen ∧ s.drv.nRx = size s.rdlen ∧ 0 = (s.rdt.toNat + 1) % s.drv.nRx
      ∧ d = s.drv.rxRing + BitVec.ofNat 64 (16 * 0) ∧ d.toNat % 16 = 0 ∧ InMem s d 16
      ∧ s.ownedBufferMeets (d + 12) 1 = false ∧ s.ownedBufferMeets (d + 8) 2 = false ∧ s.ownedDescMeets (d + 12) 1 = false
      ∧ (memGet s.mem (d + 12).toNat).getLsbD 0 = true ∧ 60 = leNat (readBytes s.mem (d + 8) 2)
      ∧ 0x00300000 = s.drv.rxBuf.getD 0 (Config.noBuffer s.steps 0) ∧ InMem s 0x00300000 60 ∧ s.ownedBufferMeets 0x00300000 60 = false := by
  unfold InMem Legal size; decide +kernel

theorem test_hyps_TestInterruptLatchesRxt0 :
    (hostWith (.call .generateTestInterrupt) ini).code = [.call .generateTestInterrupt] ∧ ini.mask.getLsbD 7 = true := by decide

/-- Two regions that neither wrap nor meet. -/
def apart (g h : Addr × Nat) : Prop :=
  (g.1.toNat + g.2 ≤ h.1.toNat ∧ h.1.toNat + h.2 ≤ 2 ^ 64) ∨ (h.1.toNat + h.2 ≤ g.1.toNat ∧ g.1.toNat + g.2 ≤ 2 ^ 64)

/-- Section 0's rings and buffers are placed, in the words of the statement. -/
theorem placed_drv0 (s : State) (hs : s.memMap = map0) : Placed s drv0 := by
  have hm : ∀ g ∈ regions drv0, ∃ p ∈ map0, p.1 ≤ g.1.toNat ∧ g.1.toNat + g.2 ≤ p.1 + p.2 ∧ g.1.toNat + g.2 ≤ 2 ^ 64 := by decide
  have hp : (regions drv0).Pairwise apart := by unfold apart; decide
  refine ⟨by decide, by decide, by decide, by decide, fun g hg k hk => ?_, hp.imp fun h x ⟨h1, h2⟩ => ?_⟩
  · obtain ⟨p, hp, h1, h2, h3⟩ := hm g hg
    refine ⟨p, by rw [hs]; exact hp, ?_⟩
    rw [BitVec.toNat_add, BitVec.toNat_ofNat]
    omega
  · rw [Inside, BitVec.toNat_sub] at h1 h2
    unfold apart at h
    omega

/-- Section 0's plan at the least sizes, and plans just outside each bound. -/
theorem test_hyps_RingConstruction :
    (hostWith (.call (.constructRings drv0)) prog).code = [.call (.constructRings drv0)]
      ∧ (ParamsOk drv0 ∧ Placed (hostWith (.call (.constructRings drv0)) prog) drv0)
      ∧ ¬ ParamsOk { drv0 with nTx := 7 } ∧ ¬ ParamsOk { drv0 with nRx := 65536 } ∧ ¬ ParamsOk { drv0 with eePollLimit := 0 }
      ∧ ¬ Placed prog { drv0 with txRing := 0x00100010 } ∧ ¬ Placed prog { drv0 with rxBuf := drv0.rxBuf.tail } := by
  refine ⟨rfl, ⟨by unfold ParamsOk; decide, placed_drv0 _ rfl⟩, by unfold ParamsOk; decide, by unfold ParamsOk; decide,
    by unfold ParamsOk; decide, fun h => absurd h.1 (by decide), fun h => absurd h.2.2.2.1 (by decide)⟩

/-- Whose turns: the EEPROM unit's, the receive timer's, then the host's for ever. -/
def quietWho : Nat → Turn
  | 0 => .eeprom
  | 1 => .rxTimer
  | _ => .host

/-- From a state after reset with a read in progress and the timer armed, the host having nothing to do. -/
def quietRun : Nat → State
  | 0 => { State.reset with eeBusy := true, rxTimerArmed := true }
  | 1 => { State.reset with eerdData := Config.eeprom 0, eerdDone := true, rxTimerArmed := true, steps := 1 }
  | n + 2 => { State.reset with eerdData := Config.eeprom 0, eerdDone := true, icr := 0x80, steps := n + 2 }

/-- A fair run from a busy, armed state that no mark stops: no fair agent has a step from its third state on. -/
theorem test_hyps_FairRunsMakeProgress :
    fairRun quietWho quietRun ∧ (quietRun 0).eeBusy = true ∧ (quietRun 0).rxTimerArmed = true := by
  refine ⟨⟨fun n => ?_, fun τ hτ n h => ?_⟩, rfl, rfl⟩
  · rw [follows]
    match n with
    | 0 => exact (if_neg (by decide)).mpr rfl
    | 1 => exact (if_neg (by decide)).mpr rfl
    | n + 2 => exact (if_neg (show ¬ (false = true) by decide)).mpr rfl
  · have h := h (n + 2) (by omega)
    simp only [fairTurns, List.mem_cons, List.not_mem_nil, or_false] at hτ
    rcases hτ with rfl | rfl | rfl | rfl | rfl
    · exact absurd (show State.reset.txCanStep = true from h) (by decide)
    · exact absurd (show State.reset.rxCanStep = true from h) (by decide)
    all_goals exact absurd h (show ¬ (false = true) by decide)

end Sys2Proof.Tests
end

section
/-! SUPPORT. Ring lengths (R54) and ring ownership (R60): what the model's length write, legality check, ownership test and
ownership enumeration are in the rules' own words. -/

namespace Sys2Proof.Machine

open Sys2Proof.Stated

/-! ### Ring lengths -/

/-- While EN = 0 the guard of a base, length or head write lets the write through. -/
theorem unlessEnabled_of_disabled {en : Bool} (h : en = false) (reg : Reg) (s : State) (w : Out) :
    unlessEnabled en reg s w = w := by
  rw [h]; rfl

/-- A write of TDLEN while the transmit ring is disabled stores all 32 bits (R54, R242). -/
theorem exec_wrTdlen_of_disabled {s : State} {v : Word} (h : s.tctl.getLsbD 1 = false) :
    exec (.wrTdlen v) s = .next { s with tdlen := v } :=
  unlessEnabled_of_disabled h _ _ _

/-- A write of RDLEN while the receive ring is disabled stores all 32 bits (R54, R302). -/
theorem exec_wrRdlen_of_disabled {s : State} {v : Word} (h : s.rctl.getLsbD 1 = false) :
    exec (.wrRdlen v) s = .next { s with rdlen := v } :=
  unlessEnabled_of_disabled h _ _ _

/-- The legality check, field by field (R54). -/
theorem lenLegal_iff_fields (len : Word) :
    lenLegal len = true ↔ len.extractLsb' 0 7 = 0 ∧ len.extractLsb' 20 12 = 0 ∧ len ≠ 0 := by
  simp [lenLegal, and_assoc]

/-- The legality check is R54's on the value. -/
theorem lenLegal_iff (len : Word) : lenLegal len = true ↔ Legal len := by
  have low : len.extractLsb' 0 7 = 0 ↔ len.toNat % 128 = 0 := by
    rw [← BitVec.toNat_inj, BitVec.extractLsb'_toNat]; rfl
  have high : len.extractLsb' 20 12 = 0 ↔ len.toNat < 0x100000 := by
    have := len.isLt
    rw [← BitVec.toNat_inj, BitVec.extractLsb'_toNat]
    change len.toNat >>> 20 % 2 ^ 12 = 0 ↔ len.toNat < 0x100000
    omega
  have nonzero : len ≠ 0 ↔ len.toNat ≠ 0 := by
    rw [ne_eq, ← BitVec.toNat_inj]; rfl
  rw [lenLegal_iff_fields, low, high, nonzero, Legal]

/-- A legal length makes a ring of a multiple of 8 descriptors, between 8 and 65528 (R54). -/
theorem size_of_legal {len : Word} (h : Legal len) : size len % 8 = 0 ∧ 8 ≤ size len ∧ size len ≤ 65528 := by
  obtain ⟨low, high, nonzero⟩ := h
  unfold size
  omega

theorem size_pos {len : Word} (h : Legal len) : 0 < size len := by
  have := size_of_legal h
  omega

/-- The model's ring size is the rule's. -/
@[simp] theorem RingView.size_eq (v : RingView) : v.size = Stated.size v.len := rfl

/-! ### Cyclic arithmetic -/

/-- Below twice the modulus, a remainder takes at most one subtraction. -/
theorem mod_of_lt_two_mul {a n : Nat} (h : a < 2 * n) : a % n = if a < n then a else a - n := by
  split
  · next hlt => exact Nat.mod_eq_of_lt hlt
  · next hge => rw [Nat.mod_eq_sub_mod (by omega), Nat.mod_eq_of_lt (by omega)]

/-- An index `i` is the one `k` places after `h` exactly when its distance from `h` is `k`. -/
theorem eq_add_mod_iff {n h i k : Nat} (hh : h < n) (hi : i < n) (hk : k < n) :
    i = (h + k) % n ↔ (i + (n - h)) % n = k := by
  rw [mod_of_lt_two_mul (show h + k < 2 * n by omega), mod_of_lt_two_mul (show i + (n - h) < 2 * n by omega)]
  split <;> split <;> omega

/-! ### Ownership -/

/-- The device owns fewer descriptors than the ring has, whatever its cursors (R60). -/
theorem RingView.ownedCount_lt_size {v : RingView} (h : Legal v.len) : v.ownedCount < Stated.size v.len := by
  rw [ownedCount, if_pos ((lenLegal_iff _).2 h)]
  exact Nat.mod_lt _ (size_pos h)

/-- With the head in range, the number of owned descriptors is the tail's distance from the head. -/
theorem RingView.ownedCount_eq_distance {v : RingView} (h : Legal v.len) (hh : v.head.toNat < Stated.size v.len) :
    v.ownedCount = (v.tail.toNat + (Stated.size v.len - v.head.toNat)) % Stated.size v.len := by
  rw [ownedCount, if_pos ((lenLegal_iff _).2 h), size_eq, Nat.mod_eq_of_lt hh]

/-- An owned index is an index of the ring. -/
theorem lt_size_of_owns {v : RingView} {i : Nat} (h : Owns v i) : i < Stated.size v.len := by
  obtain ⟨hl, k, -, rfl⟩ := h
  exact Nat.mod_lt _ (size_pos hl)

section
variable {v : RingView} (hg : GoodRing v)
include hg

/-- The cyclic interval, counted by the model. -/
theorem owns_iff_lt_ownedCount (i : Nat) :
    Owns v i ↔ ∃ k, k < v.ownedCount ∧ i = (v.head.toNat + k) % Stated.size v.len := by
  obtain ⟨hl, hh, -⟩ := hg
  rw [RingView.ownedCount_eq_distance hl hh, ← Nat.add_sub_assoc (Nat.le_of_lt hh)]
  exact and_iff_right hl

/-- The model's enumeration runs through the cyclic interval. -/
theorem ownedIndex_iff (i : Nat) : (∃ k, k < v.ownedCount ∧ v.ownedIndex k = i) ↔ Owns v i := by
  simp only [owns_iff_lt_ownedCount hg, RingView.ownedIndex, RingView.size_eq, eq_comm (a := i)]

/-- An index of the ring is owned exactly when its distance from the head is below the number owned. -/
theorem owns_iff_distance {i : Nat} (hi : i < Stated.size v.len) :
    Owns v i ↔ (i + (Stated.size v.len - v.head.toNat)) % Stated.size v.len < v.ownedCount := by
  have ⟨hl, hh, _⟩ := hg
  have hc := RingView.ownedCount_lt_size hl
  rw [owns_iff_lt_ownedCount hg]
  constructor
  · rintro ⟨k, hk, hik⟩
    rwa [(eq_add_mod_iff hh hi (hk.trans hc)).1 hik]
  · intro hd
    exact ⟨_, hd, (eq_add_mod_iff hh hi (hd.trans hc)).2 rfl⟩

/-- The model's ownership test is membership in the cyclic interval. -/
theorem owns_iff (i : Nat) : v.owns i = true ↔ Owns v i := by
  have ⟨_, hh, _⟩ := hg
  rw [RingView.owns, RingView.size_eq, Nat.mod_eq_of_lt hh, Bool.and_eq_true, decide_eq_true_iff, decide_eq_true_iff]
  constructor
  · rintro ⟨hi, hd⟩
    exact (owns_iff_distance hg hi).2 hd
  · intro ho
    have hi := lt_size_of_owns ho
    exact ⟨hi, (owns_iff_distance hg hi).1 ho⟩

/-- The tail's distance from the head is the number owned, so the tail is not owned. -/
theorem not_owns_tail : ¬ Owns v v.tail.toNat := by
  have ⟨hl, hh, ht⟩ := hg
  rw [owns_iff_distance hg ht, RingView.ownedCount_eq_distance hl hh]
  exact lt_irrefl _

/-- The interval is empty exactly when the cursors meet. -/
theorem ownedCount_eq_zero_iff : v.ownedCount = 0 ↔ v.head = v.tail := by
  have ⟨hl, hh, ht⟩ := hg
  have hzero := eq_add_mod_iff hh ht (size_pos hl)
  rw [Nat.add_zero, Nat.mod_eq_of_lt hh] at hzero
  rw [RingView.ownedCount_eq_distance hl hh, ← hzero, BitVec.toNat_inj, eq_comm]

/-- With head = tail nothing is owned (R60). -/
theorem not_owns_of_head_eq_tail (h : v.head = v.tail) (i : Nat) : ¬ Owns v i := by
  rw [owns_iff_lt_ownedCount hg, (ownedCount_eq_zero_iff hg).2 h]
  simp

/-- Otherwise the head is the first index of the interval (R60). -/
theorem owns_head (h : v.head ≠ v.tail) : Owns v v.head.toNat := by
  have ⟨_, hh, _⟩ := hg
  have hpos := Nat.pos_of_ne_zero (mt (ownedCount_eq_zero_iff hg).1 h)
  exact (owns_iff_lt_ownedCount hg _).2 ⟨0, hpos, (Nat.mod_eq_of_lt hh).symm⟩

end

/-! ### The engines' guards -/

/-- When the transmit engine has a DMA step (R255). -/
theorem txCanStep_iff (s : State) :
    s.txCanStep = true ↔ s.tctl.getLsbD 1 = true ∧ s.tdh ≠ s.tdt ∧ s.marked = false := by
  simp only [State.txCanStep, tctlEn, Bool.and_eq_true, bne_iff_ne, Bool.not_eq_true', and_assoc]

/-- When the receive engine has a DMA step (R320, R327). -/
theorem rxCanStep_iff (s : State) :
    s.rxCanStep = true ↔ s.rctl.getLsbD 1 = true ∧ s.rdh ≠ s.rdt ∧ s.rxFifo ≠ [] ∧ s.marked = false := by
  simp only [State.rxCanStep, rctlEn, Bool.and_eq_true, bne_iff_ne, Bool.not_eq_true', List.isEmpty_eq_false_iff,
    and_assoc]

end Sys2Proof.Machine
end

section
/-! PROOFS. The ring lengths of R54 and the ownership of R60. -/

namespace Sys2Proof.Machine

open Sys2Proof.Stated

/-- Settles O11: the check is R54's by its bit fields and by value, and R54's bounds on the size follow from the value. -/
theorem legalLengthsMakeRings : Obligations.LegalLengthsMakeRings :=
  ⟨fun _ _ => ⟨exec_wrTdlen_of_disabled, exec_wrRdlen_of_disabled⟩, lenLegal_iff_fields, lenLegal_iff,
    fun _ h => ⟨rfl, size_of_legal h⟩, rfl, rfl, by decide⟩

/-- Settles O30: an index is in [head, tail) exactly when its distance from the head is below the number owned. -/
theorem ownershipIsTheCyclicInterval : Obligations.OwnershipIsTheCyclicInterval := by
  refine ⟨fun v hg => ⟨owns_iff hg, ownedIndex_iff hg, not_owns_of_head_eq_tail hg, owns_head hg, not_owns_tail hg⟩,
    fun v hl => ?_, fun s => ⟨fun hg hs => ?_, fun hg hs => ?_⟩⟩
  · exact Nat.le_sub_one_of_lt (RingView.ownedCount_lt_size hl)
  · have ⟨_, hne, _⟩ := (txCanStep_iff s).1 hs
    exact owns_head hg hne
  · have ⟨_, hne, _⟩ := (rxCanStep_iff s).1 hs
    exact owns_head hg hne

end Sys2Proof.Machine
end

section
/-! PROOFS. The side effects of register reads (R108). -/

namespace Sys2Proof.Machine

/-- Settles O24: a read rule answers a stored value, a drawn value or the drain, and the drain is ICR's alone. -/
theorem onlyTheDrainReadHasASideEffect : Obligations.OnlyTheDrainReadHasASideEffect := by
  refine ⟨fun reg s t hne h => ?_, fun s t h => ?_⟩
  · rw [exec_readInstr] at h
    rcases readRule_cases reg s with ⟨v, stored⟩ | ⟨v, drawn⟩ | ⟨drain, -⟩
    · obtain rfl := Host.Outcome.next.inj (stored.symm.trans h)
      rfl
    · obtain rfl := Host.Outcome.next.inj (drawn.symm.trans h)
      rfl
    · exact absurd drain hne
  · obtain rfl := Host.Outcome.next.inj h
    rfl

end Sys2Proof.Machine
end

section
/-! SUPPORT. The checks of a register access (R142), each by the reject it answers and the mark it sets. -/

namespace Sys2Proof

/-- An offset that no register has is not in R141's table. -/
theorem Reg.ofOffset_eq_none {o : Nat} (h : ∀ r : Reg, r.offset ≠ o) : Reg.ofOffset o = none :=
  Option.eq_none_iff_forall_ne_some.2 fun r hr => h r (Reg.offset_of_ofOffset hr).symm

theorem decodeOffset_of_misaligned {o : Nat} (h : o % 4 ≠ 0) : decodeOffset o = .error (.misaligned o) :=
  if_pos h

theorem decodeOffset_of_outOfRange {o : Nat} (aligned : o % 4 = 0) (h : Config.regWindowLen ≤ o) :
    decodeOffset o = .error (.outOfRange o) := by
  rw [decodeOffset, if_neg (not_not_intro aligned), if_pos h]

theorem decodeOffset_of_unmodelled {o : Nat} (aligned : o % 4 = 0) (inWindow : o < Config.regWindowLen)
    (h : ∀ r : Reg, r.offset ≠ o) : decodeOffset o = .error (.unmodelled o) := by
  rw [decodeOffset, if_neg (not_not_intro aligned), if_neg (Nat.not_le.2 inWindow), Reg.ofOffset_eq_none h]

theorem decodeAccess_of_width_ne {a : Access} (h : a.width ≠ Config.regWidth) :
    decodeAccess a = .error (.unsupportedWidth a.offset a.width) :=
  if_pos h

theorem decodeAccess_of_offset_error {a : Access} {e : AccessReject} (w : a.width = Config.regWidth)
    (h : decodeOffset a.offset = .error e) : decodeAccess a = .error e := by
  rw [decodeAccess, if_neg (not_not_intro w), h]

theorem decodeAccess_of_offset_ok {a : Access} {r : Reg} (w : a.width = Config.regWidth)
    (h : decodeOffset a.offset = .ok r) :
    decodeAccess a = .ok (if a.write then r.writeInstr a.data else r.readInstr) := by
  rw [decodeAccess, if_neg (not_not_intro w), h]

namespace Machine

/-- An access that passes the checks runs its instruction. -/
theorem runCode_of_access_ok {a : Access} {i : Instr} (h : decodeAccess a = .ok i) (s : State) :
    runCode (.access a) s = exec i s := by
  rw [runCode, decode, h]

/-- An access that is rejected sets the mark of its reject. -/
theorem runCode_of_access_error {a : Access} {e : AccessReject} (h : decodeAccess a = .error e) (s : State) :
    runCode (.access a) s = .next (rejectAccess e s) := by
  rw [runCode, decode, h]

end Machine
end Sys2Proof
end

section
/-! SUPPORT. What the transmit engine reads of a descriptor (R153), and the filter values of an address (R145). -/

namespace Sys2Proof.Machine

/-- Two commands with the same bits 6:0 have the same bit at each index below 7. -/
theorem getLsbD_eq_of_low_bits_eq {c c' : BitVec 8} (h : c'.extractLsb' 0 7 = c.extractLsb' 0 7) {k : Nat} (hk : k < 7) :
    c'.getLsbD k = c.getLsbD k := by
  simpa [hk] using congrArg (·.getLsbD k) h

section
variable {d e : TxDesc} (haddr : e.bufferAddr = d.bufferAddr) (hlen : e.length = d.length)
include haddr hlen

/-- The frame's part of a step reads the buffer address, the length, EOP and IFCS. -/
theorem txTake_congr (heop : cmdEop e.cmd = cmdEop d.cmd) (hifcs : cmdIfcs e.cmd = cmdIfcs d.cmd) (s : State) :
    txTake e s = txTake d s := by
  simp only [txTake, haddr, hlen, heop, hifcs]

/-- The bytes a step would touch depend on the buffer address, the length and RS. -/
theorem txMissing_congr (hrs : cmdRs e.cmd = cmdRs d.cmd) (da : Addr) (s : State) :
    txMissing e da s = txMissing d da s := by
  simp only [txMissing, haddr, hlen, hrs]

end

/-- The write-back reads RS alone. -/
theorem txWriteBack_congr {d e : TxDesc} (hrs : cmdRs e.cmd = cmdRs d.cmd) (da : Addr) (s : State) :
    txWriteBack e da s = txWriteBack d da s := by
  simp only [txWriteBack, hrs]

/-- F17 is decided by IC, the reserved bit 4 and VLE, all among bits 6:0. -/
theorem cmdUnmodelled_congr {c c' : BitVec 8} (h : c'.extractLsb' 0 7 = c.extractLsb' 0 7) :
    cmdUnmodelled c' = cmdUnmodelled c := by
  have bit := @getLsbD_eq_of_low_bits_eq c c' h
  simp only [cmdUnmodelled, cmdIc, cmdBit4, cmdVle, bit (k := 2) (by decide), bit (k := 4) (by decide),
    bit (k := 6) (by decide)]

/-- RAH0's value as its fields: AV = 1, reserved zeros, AS = 00, and the address's bits 47:32. -/
theorem rahOf_eq_append (sa : BitVec 48) : rahOf sa = 1#1 ++ 0#13 ++ 0#2 ++ sa.extractLsb' 32 16 := by
  rw [show 1#1 ++ 0#13 ++ 0#2 = 0x8000#16 by decide, BitVec.append_def]
  rfl

end Sys2Proof.Machine
end

section
/-! PROOFS. The checks of a register access (R142), the unused fields of a transmit descriptor (R153) and the station
address (R145). -/

namespace Sys2Proof.Machine

/-- Settles O3: each premise decides the decoder's check and the ones before it, and the reject names the mark. -/
theorem accessChecksInOrder : Obligations.AccessChecksInOrder := by
  refine fun a s => ⟨fun width => ?_, fun width misaligned => ?_, fun width aligned outside => ?_,
    fun width aligned inside noReg => ?_, fun r width here => ?_⟩
  · exact runCode_of_access_error (decodeAccess_of_width_ne width) s
  · exact runCode_of_access_error (decodeAccess_of_offset_error width (decodeOffset_of_misaligned misaligned)) s
  · exact runCode_of_access_error (decodeAccess_of_offset_error width (decodeOffset_of_outOfRange aligned outside)) s
  · exact runCode_of_access_error
      (decodeAccess_of_offset_error width (decodeOffset_of_unmodelled aligned inside noReg)) s
  · exact runCode_of_access_ok (decodeAccess_of_offset_ok width (here ▸ decodeOffset_offset r)) s

/-- Settles O34: of the command TXD reads only bits 0 to 4 and 6, and of the other fields only the buffer address and the
length. -/
theorem transmitIgnoresUnusedFields : Obligations.TransmitIgnoresUnusedFields := by
  intro d e s haddr hlen hcmd
  have heop : cmdEop e.cmd = cmdEop d.cmd := getLsbD_eq_of_low_bits_eq hcmd (by decide)
  have hifcs : cmdIfcs e.cmd = cmdIfcs d.cmd := getLsbD_eq_of_low_bits_eq hcmd (by decide)
  have hrs : cmdRs e.cmd = cmdRs d.cmd := getLsbD_eq_of_low_bits_eq hcmd (by decide)
  simp only [exec, execTxd, cmdUnmodelled_congr hcmd, hlen, txMissing_congr haddr hlen hrs,
    txTake_congr haddr hlen heop hifcs, txWriteBack_congr hrs]

/-- Settles O57: the address is an append of the words, so each byte of it is that byte of the word it falls in. -/
theorem stationAddressOfWords : Obligations.StationAddressOfWords := by
  intro w0 w1 w2
  refine ⟨rfl, ?_, rfl, rahOf_eq_append _⟩
  have word0 {k : Nat} (hk : k + 8 ≤ 16) : (w2 ++ w1 ++ w0).extractLsb' k 8 = w0.extractLsb' k 8 :=
    BitVec.extractLsb'_append_eq_of_add_le hk
  have word1 {k : Nat} (hk : k + 8 ≤ 16) : (w2 ++ w1 ++ w0).extractLsb' (16 + k) 8 = w1.extractLsb' k 8 := by
    rw [extract_high _ _ (by omega), Nat.add_sub_cancel_left]
    exact BitVec.extractLsb'_append_eq_of_add_le hk
  have word2 (k : Nat) : (w2 ++ w1 ++ w0).extractLsb' (32 + k) 8 = w2.extractLsb' k 8 := by
    rw [extract_high _ _ (by omega), extract_high _ _ (by omega)]
    congr 1
    omega
  exact ⟨word0 (k := 0) (by decide), word0 (k := 8) (by decide), word1 (k := 0) (by decide), word1 (k := 8) (by decide),
    word2 0, word2 8⟩

end Sys2Proof.Machine
end

section
/-! SUPPORT. Host reads (R206): the range check as membership in `MEM`, and the outcome each check decides. -/

namespace Sys2Proof.Machine

open Sys2Proof.Stated

/-! ### Ranges of `MEM` -/

theorem exists?_iff (map : List (Nat × Nat)) (x : Nat) :
    exists? map x = true ↔ ∃ p ∈ map, p.1 ≤ x ∧ x < p.1 + p.2 := by
  simp only [exists?, List.any_eq_true, Bool.and_eq_true, decide_eq_true_iff]

/-- The byte `k` places after the next address is the one `k + 1` places on, modulo 2^64 (R110). -/
theorem addr_succ_add_ofNat (a : Addr) (k : Nat) : a + 1 + BitVec.ofNat 64 k = a + BitVec.ofNat 64 (k + 1) := by
  rw [Nat.add_comm k, BitVec.ofNat_add, BitVec.add_assoc]
  rfl

/-- The range check finds no missing byte exactly when every byte of the range exists (R111). -/
theorem firstMissing_eq_none_iff_forall (map : List (Nat × Nat)) (a : Addr) (n : Nat) :
    firstMissing map a n = none ↔ ∀ k < n, exists? map (a + BitVec.ofNat 64 k).toNat = true := by
  induction n generalizing a with
  | zero => simp [firstMissing]
  | succ n ih =>
    rw [Nat.forall_lt_succ_left', BitVec.add_zero, firstMissing]
    split
    next here => simp only [here, ih, addr_succ_add_ofNat, true_and]
    next missing => simp [missing]

theorem firstMissing_eq_none_iff (s : State) (a : Addr) (n : Nat) : firstMissing s.memMap a n = none ↔ InMem s a n := by
  simp only [firstMissing_eq_none_iff_forall, exists?_iff, InMem]

/-! ### The checks of a host access -/

theorem naturallyAligned_iff (n : Size) (a : Addr) : naturallyAligned n a = true ↔ a.toNat % n.bytes = 0 :=
  beq_iff_eq

/-- The check for F18, which host reads and writes share. -/
theorem hostAccessUnmapped_iff (al : Bool) (s : State) (a : Addr) (n : Nat) :
    (!al || (firstMissing s.memMap a n).isSome) = true ↔ ¬ (al = true ∧ InMem s a n) := by
  rw [← firstMissing_eq_none_iff, ← Option.not_isSome_iff_eq_none, not_and_or, Bool.or_eq_true, Bool.not_eq_true',
    not_not, Bool.not_eq_true]

/-- A load is a host read of N naturally aligned bytes, taken as a little-endian number (R100, R114). -/
theorem exec_ld (n : Size) (a : Addr) (s : State) :
    exec (.ld n a) s =
      hostReads (naturallyAligned n a) a n.bytes s (fun bytes => s.gets (BitVec.ofNat 64 (leNat bytes))) := rfl

section
variable {al : Bool} {a : Addr} {n : Nat} {s : State}

theorem hostReads_of_unmapped (h : ¬ (al = true ∧ InMem s a n)) (k : List Byte → State) :
    hostReads al a n s k = .next (refuse (.hostAccessUnmapped a) .host s) :=
  if_pos ((hostAccessUnmapped_iff al s a n).2 h)

section
variable (mapped : al = true ∧ InMem s a n)
include mapped

theorem hostReads_of_mapped (k : List Byte → State) :
    hostReads al a n s k =
      if s.ownedBufferMeets a n then .next (raise (.ownershipRace a) .host s) else .next (k (readBytes s.mem a n)) :=
  if_neg (mt (hostAccessUnmapped_iff al s a n).1 (not_not_intro mapped))

theorem hostReads_of_owned (owned : s.ownedBufferMeets a n = true) (k : List Byte → State) :
    hostReads al a n s k = .next (raise (.ownershipRace a) .host s) :=
  (hostReads_of_mapped mapped k).trans (if_pos owned)

theorem hostReads_of_free (free : s.ownedBufferMeets a n = false) (k : List Byte → State) :
    hostReads al a n s k = .next (k (readBytes s.mem a n)) :=
  (hostReads_of_mapped mapped k).trans (if_neg (Bool.eq_false_iff.1 free))

end
end

end Sys2Proof.Machine
end

section
/-! SUPPORT. Register accesses of the host's program (R140, R200): a register's write key, the host's step on its next
command, what a rejected access leaves, and the two outcomes of a pseudo-operation's first step (R210 to R214). -/

namespace Sys2Proof

/-- An offset that no register has is rejected, by one check or another (R142). -/
theorem decodeOffset_of_no_register {o : Nat} (h : ∀ r : Reg, r.offset ≠ o) : ∃ e, decodeOffset o = .error e := by
  cases hd : decodeOffset o with
  | error e => exact ⟨e, rfl⟩
  | ok r => exact absurd (decodeOffset_ok hd).symm (h r)

/-- A register's write key is W = 1 over its offset (R140); the data is no part of it. -/
theorem Reg.wr_key (r : Reg) (v : Word) : (Access.wr r.offset v).key = BitVec.ofNat 18 (0x20000 + r.offset) := by
  change BitVec.ofBool true ++ BitVec.ofNat 17 r.offset = _
  cases r <;> decide

/-- Every register's write access decodes to its write, under the key R141 gives it. -/
theorem Reg.writeKey (r : Reg) : Stated.WriteKey r.offset (fun v => r.writeInstr v) :=
  fun v => ⟨decodeAccess_wr r v, r.wr_key v⟩

namespace Machine

/-- The host's turn runs the next command of its program. -/
theorem runTurn_host_of_code {s : State} {c : HostCmd} {rest : List HostCmd} (h : s.code = c :: rest) :
    runTurn .host s = runCmd c { s with code := rest } := by
  rw [runTurn, hostStep, h]

/-! ### Marks -/

theorem raise_onlyMarks (f : Fault) (g : Agent) (s : State) : OnlyMarks s (raise f g s) := rfl

theorem refuse_onlyMarks (f : Refusal) (g : Agent) (s : State) : OnlyMarks s (refuse f g s) := rfl

/-- A rejected access sets a mark and changes nothing else (R603, R604). -/
theorem rejectAccess_marked_onlyMarks (e : AccessReject) (s : State) :
    (rejectAccess e s).marked = true ∧ OnlyMarks s (rejectAccess e s) := by
  rcases rejectAccess_cases e s with ⟨f, h⟩ | ⟨f, h⟩ <;> rw [h]
  · exact ⟨raise_marked f .host s, raise_onlyMarks f .host s⟩
  · exact ⟨refuse_marked f .host s, refuse_onlyMarks f .host s⟩

/-! ### Pseudo-operations -/

/-- On a register's offset: the read, with the write of the changed value put next in the program (R212). -/
theorem readThenWrite_offset {reg : Reg} {s u : State} (h : exec reg.readInstr s = .next u) (upd : Word → Word) :
    readThenWrite reg.offset upd s = .next (u.pushCode [.access (Access.wr reg.offset (upd u.word))]) := by
  rw [exec_readInstr] at h
  simp only [readThenWrite, decodeOffset_offset, h]

/-- On a rejected offset: the mark of the reject alone (R214). -/
theorem readThenWrite_of_offset_error {o : Nat} {e : AccessReject} (h : decodeOffset o = .error e) (upd : Word → Word)
    (s : State) : readThenWrite o upd s = .next (rejectAccess e s) := by
  rw [readThenWrite, h]

theorem exec_setBits (o : Nat) (m : Word) (s : State) :
    exec (.setBits o m) s = readThenWrite o (fun r => r ||| m) s := rfl

theorem exec_clearBits (o : Nat) (m : Word) (s : State) :
    exec (.clearBits o m) s = readThenWrite o (fun r => r &&& ~~~m) s := rfl

theorem exec_writeField_of_shift_lt {sh : Nat} (h : sh < 32) (o : Nat) (m v : Word) (s : State) :
    exec (.writeField o m sh v) s = readThenWrite o (placeField m sh v) s :=
  if_neg (Nat.not_le.2 h)

/-- F19 comes before either access (R213). -/
theorem exec_writeField_of_shift_ge {sh : Nat} (h : 32 ≤ sh) (o : Nat) (m v : Word) (s : State) :
    exec (.writeField o m sh v) s = .next (refuse (.pseudoOpShiftOutOfRange sh) .host s) :=
  if_pos h

end Machine
end Sys2Proof
end

section
/-! PROOFS. Host loads (R206), pseudo-operations (R210 to R214) and the write of STATUS (R205). -/

namespace Sys2Proof.Machine

/-- Settles O27: each clause decides the checks of the load's host read, in their order. -/
theorem hostLoad : Obligations.HostLoad := by
  intro n a s
  rw [exec_ld, ne_eq, ← naturallyAligned_iff]
  refine ⟨fun stops => ?_, fun aligned mapped owned => ?_, fun aligned mapped free => ?_⟩
  · exact hostReads_of_unmapped (not_and_or.2 stops) _
  · exact hostReads_of_owned ⟨aligned, mapped⟩ owned _
  · exact hostReads_of_free ⟨aligned, mapped⟩ free _

/-- Settles O48: each operation is `readThenWrite` with its own change of the value, whose two outcomes are the read with
the queued write and the mark of a rejected offset. -/
theorem pseudoOpsExpand : Obligations.PseudoOpsExpand := by
  refine ⟨fun reg m v sh s => ?_, fun reg x s rest next => ?_, fun o m sh v s wide => ?_, fun o m sh v s noReg => ?_⟩
  · obtain ⟨u, read⟩ := exec_next reg.readInstr s
    have expands := readThenWrite_offset read
    rw [exec_setBits, exec_clearBits]
    refine ⟨u, read, expands _, expands _, fun narrow => ?_⟩
    rw [exec_writeField_of_shift_lt narrow]
    exact expands _
  · rw [runTurn_host_of_code next]
    exact runCode_of_access_ok (decodeAccess_wr reg x) _
  · exact exec_writeField_of_shift_ge wide o m v s
  · obtain ⟨e, rejected⟩ := decodeOffset_of_no_register noReg
    obtain ⟨marked, only⟩ := rejectAccess_marked_onlyMarks e s
    have stops := fun upd => readThenWrite_of_offset_error rejected upd s
    rw [exec_setBits, exec_clearBits]
    refine ⟨rejectAccess e s, marked, only, stops _, stops _, fun narrow => ?_,
      runCode_of_access_error (decodeAccess_of_offset_error rfl rejected) s⟩
    rw [exec_writeField_of_shift_lt narrow]
    exact stops _

/-- Settles O22: the access is STATUS's write access, and its rule is the refusal on every path. -/
theorem statusWriteIsRefused : Obligations.StatusWriteIsRefused :=
  ⟨Reg.writeKey .status, fun _ _ => rfl⟩

end Sys2Proof.Machine
end

section
/-! SUPPORT. Accesses of the ring registers (R240 to R244, R300 to R304): a register's two keys, the guard of EN, and
the range check of a cursor write in the rules' own words. -/

namespace Sys2Proof

/-- A register's read key is W = 0 over its offset (R140). -/
theorem Reg.rd_key (r : Reg) : (Access.rd r.offset).key = BitVec.ofNat 18 r.offset := by
  change BitVec.ofBool false ++ BitVec.ofNat 17 r.offset = _
  cases r <;> decide

/-- Every register's read access decodes to its read, under the key R141 gives it. -/
theorem Reg.readKey (r : Reg) : Stated.ReadKey r.offset r.readInstr := ⟨decodeAccess_rd r, r.rd_key⟩

/-- Both accesses of a register, under the keys R141 gives them. -/
theorem Reg.keys (r : Reg) : Stated.Keys r.offset r.readInstr (fun v => r.writeInstr v) := ⟨r.readKey, r.writeKey⟩

namespace Machine

open Sys2Proof.Stated

/-! ### The guards of a write -/

/-- While EN = 1 a base, length or head write is F6, whatever it would have done. -/
theorem unlessEnabled_of_enabled {en : Bool} (h : en = true) (reg : Reg) (s : State) (w : Out) :
    unlessEnabled en reg s w = .next (raise (.configWhileEnabled reg) .host s) := by
  rw [h]; rfl

/-- A cursor write is out of range for one of R243's three reasons. -/
theorem cursorBad_iff (len v : Word) :
    cursorBad len v = true ↔
      v.toNat ≥ 0x10000 ∨ (Legal len ∧ v.toNat ≥ Stated.size len) ∨ (¬ Legal len ∧ v ≠ 0) := by
  have high : v.extractLsb' 16 16 ≠ 0 ↔ v.toNat ≥ 0x10000 := by
    have := v.isLt
    rw [ne_eq, ← BitVec.toNat_inj, BitVec.extractLsb'_toNat]
    change ¬ v.toNat >>> 16 % 2 ^ 16 = 0 ↔ v.toNat ≥ 0x10000
    omega
  have low : (v.extractLsb' 0 16).toNat = v.toNat % 0x10000 := BitVec.extractLsb'_toNat _ _ _
  rw [cursorBad, Bool.or_eq_true, bne_iff_ne, high]
  by_cases legal : Legal len
  · have := (size_of_legal legal).2.2
    rw [if_pos ((lenLegal_iff len).2 legal), decide_eq_true_iff, low]
    simp only [legal, true_and, not_true_eq_false, false_and, or_false]
    change _ ∨ Stated.size len ≤ _ ↔ _
    omega
  · rw [if_neg (mt (lenLegal_iff len).1 legal), bne_iff_ne]
    simp only [legal, false_and, not_false_eq_true, true_and, false_or]

/-- A cursor write is in range below the size of a legal ring, and at 0 without one. -/
theorem cursorBad_eq_false_iff (len v : Word) :
    cursorBad len v = false ↔ (Legal len ∧ v.toNat < Stated.size len) ∨ (¬ Legal len ∧ v = 0) := by
  rw [← Bool.not_eq_true, cursorBad_iff]
  by_cases legal : Legal len
  · have := (size_of_legal legal).2.2
    simp only [legal, true_and, not_true_eq_false, false_and, or_false]
    omega
  · simp only [legal, false_and, not_false_eq_true, true_and, false_or, not_or, not_not]
    exact ⟨And.right, by rintro rfl; decide⟩

section
variable {len v : Word}

theorem cursorWrite_of_bad
    (h : v.toNat ≥ 0x10000 ∨ (Legal len ∧ v.toNat ≥ Stated.size len) ∨ (¬ Legal len ∧ v ≠ 0))
    (reg : Reg) (s t : State) : cursorWrite len reg v s t = .next (raise (.cursorOutOfRange reg v) .host s) :=
  if_pos ((cursorBad_iff len v).2 h)

theorem cursorWrite_of_good (h : (Legal len ∧ v.toNat < Stated.size len) ∨ (¬ Legal len ∧ v = 0))
    (reg : Reg) (s t : State) : cursorWrite len reg v s t = .next t :=
  if_neg (Bool.eq_false_iff.1 ((cursorBad_eq_false_iff len v).2 h))

/-- The cursor that an admitted write of a legal ring stores is the value itself. -/
theorem setWidth_toNat_of_lt_size (legal : Legal len) (h : v.toNat < Stated.size len) :
    (v.setWidth 16).toNat = v.toNat := by
  have := (size_of_legal legal).2.2
  rw [BitVec.toNat_setWidth, Nat.mod_eq_of_lt (by omega)]

end

/-! ### The enable checks -/

/-- A base register's bits 3:0 are 0 exactly when its value is a multiple of 16 (R53). -/
theorem baseAligned_iff (bal : Word) : bal.extractLsb' 0 4 = 0 ↔ bal.toNat % 16 = 0 := by
  rw [← BitVec.toNat_inj, BitVec.extractLsb'_toNat]
  rfl

section
variable {v : RingView} (bal : Word) (hd tl ctl : Reg) (x ref : Word) (s : State)

/-- F7 comes first. -/
theorem enableChecks_of_illegal (h : ¬ Legal v.len) :
    enableChecks v bal hd tl ctl x ref s = raise (.badRingLength v.len) .host s := by
  rw [enableChecks, Bool.eq_false_iff.2 (mt (lenLegal_iff _).1 h)]
  rfl

/-- F8 comes next. -/
theorem enableChecks_of_misaligned (legal : Legal v.len) (h : bal.toNat % 16 ≠ 0) :
    enableChecks v bal hd tl ctl x ref s = raise (.badRingBase bal) .host s := by
  rw [enableChecks, (lenLegal_iff _).2 legal, Bool.not_true, if_neg Bool.false_ne_true,
    if_pos (bne_iff_ne.2 (mt (baseAligned_iff bal).1 h))]

end

/-! ### Reads of a cursor -/

/-- A read of a 16-bit cursor returns it with all higher bits 0 (R55). -/
theorem getsWord_cursor (s : State) (c : Half) : s.getsWord (c.setWidth 32) = { s with r := c.setWidth 64 } := by
  rw [State.getsWord, BitVec.setWidth_setWidth (by decide)]
  rfl

/-! ### Writes of the transmit and receive registers -/

theorem exec_wrTctl_of_en {v : Word} (h : v.getLsbD 1 = true) (s : State) :
    exec (.wrTctl v) s =
      .next (enableChecks s.txRing s.tdbal .tdh .tdt .tctl v tctlRefused { s with tctl := v }) :=
  if_pos h

theorem exec_wrTdh (v : Word) (s : State) :
    exec (.wrTdh v) s =
      unlessEnabled (s.tctl.getLsbD 1) .tdh s (cursorWrite s.tdlen .tdh v s { s with tdh := v.setWidth 16 }) := by
  rw [BitVec.setWidth_eq_extractLsb' (by decide)]
  rfl

theorem exec_wrRdh (v : Word) (s : State) :
    exec (.wrRdh v) s =
      unlessEnabled (s.rctl.getLsbD 1) .rdh s (cursorWrite s.rdlen .rdh v s { s with rdh := v.setWidth 16 }) := by
  rw [BitVec.setWidth_eq_extractLsb' (by decide)]
  rfl

theorem exec_wrTdt (v : Word) (s : State) :
    exec (.wrTdt v) s = cursorWrite s.tdlen .tdt v s { s with tdt := v.setWidth 16 } := by
  rw [BitVec.setWidth_eq_extractLsb' (by decide)]
  rfl

theorem exec_wrRdt (v : Word) (s : State) :
    exec (.wrRdt v) s = cursorWrite s.rdlen .rdt v s { s with rdt := v.setWidth 16 } := by
  rw [BitVec.setWidth_eq_extractLsb' (by decide)]
  rfl

/-! ### Ownership after a tail write -/

/-- A tail written onto the head leaves nothing owned (R266): the head was in range, or there is no ring. -/
theorem not_owns_of_tail_written_onto_head {v : RingView} {x : Word}
    (h : (Legal v.len ∧ x.toNat < Stated.size v.len) ∨ (¬ Legal v.len ∧ x = 0)) (onto : x.setWidth 16 = v.head)
    (i : Nat) : ¬ Owns { v with tail := x.setWidth 16 } i := by
  rcases h with ⟨legal, below⟩ | ⟨illegal, -⟩
  · have head : v.head.toNat < Stated.size v.len := by
      rwa [← onto, setWidth_toNat_of_lt_size legal below]
    exact not_owns_of_head_eq_tail (v := { v with tail := x.setWidth 16 }) ⟨legal, head, onto ▸ head⟩ onto.symm i
  · exact fun owned => illegal owned.1

/-- With the head at 0 the device owns the indices below the tail. -/
theorem owns_iff_lt_tail {v : RingView} (legal : Legal v.len) (head : v.head = 0)
    (tail : v.tail.toNat < Stated.size v.len) (i : Nat) : Owns v i ↔ i < v.tail.toNat := by
  have head0 : v.head.toNat = 0 := by rw [head]; rfl
  have count : (v.tail.toNat + Stated.size v.len - v.head.toNat) % Stated.size v.len = v.tail.toNat := by
    rw [head0, Nat.sub_zero, Nat.add_mod_right, Nat.mod_eq_of_lt tail]
  rw [Owns, count, head0]
  constructor
  · rintro ⟨-, k, below, rfl⟩
    rwa [Nat.zero_add, Nat.mod_eq_of_lt (below.trans tail)]
  · intro below
    exact ⟨legal, i, below, by rw [Nat.zero_add, Nat.mod_eq_of_lt (below.trans tail)]⟩

end Machine
end Sys2Proof
end

section
/-! PROOFS. The transmit base and length registers (R240 to R242), the heads (R243, R303) and the tails (R244, R304). -/

namespace Sys2Proof.Machine

open Sys2Proof.Stated

/-- Settles O12: EN guards each write, and the first two enable checks are those of the length and the base. -/
theorem transmitBaseAndLengthAccess : Obligations.TransmitBaseAndLengthAccess := by
  refine ⟨Reg.keys .tdbal, Reg.keys .tdbah, Reg.keys .tdlen, fun _ => rfl, fun _ => rfl, fun _ => rfl,
    fun s v off => ?_, fun s v on => ?_, fun s v legal misaligned on => ?_, fun s v illegal on => ?_,
    fun s v illegal nonzero => ?_, (lenLegal_iff _).1 (by decide), rfl⟩
  · exact ⟨unlessEnabled_of_disabled off _ _ _, unlessEnabled_of_disabled off _ _ _, exec_wrTdlen_of_disabled off⟩
  · exact ⟨unlessEnabled_of_enabled on _ _ _, unlessEnabled_of_enabled on _ _ _, unlessEnabled_of_enabled on _ _ _⟩
  · rw [exec_wrTctl_of_en on, enableChecks_of_misaligned _ _ _ _ _ _ _ legal misaligned]
  · rw [exec_wrTctl_of_en on, enableChecks_of_illegal _ _ _ _ _ _ _ illegal]
    rfl
  · refine ⟨?_, fun off => ?_⟩
    · rw [exec_wrTdt, cursorWrite_of_bad (.inr (.inr ⟨illegal, nonzero⟩))]
    · rw [exec_wrTdh, unlessEnabled_of_disabled off, cursorWrite_of_bad (.inr (.inr ⟨illegal, nonzero⟩))]

/-- Settles O14: EN guards a head write, and the range check is R243's by its three reasons. -/
theorem headAccess : Obligations.HeadAccess := by
  refine ⟨Reg.keys .tdh, Reg.keys .rdh, fun s => congrArg Host.Outcome.next (getsWord_cursor s _),
    fun s => congrArg Host.Outcome.next (getsWord_cursor s _), fun s v on => unlessEnabled_of_enabled on _ _ _,
    fun s v on => unlessEnabled_of_enabled on _ _ _, fun s v off bad => ?_, fun s v off bad => ?_,
    fun s v off good => ?_, fun s v off good => ?_⟩
  · rw [exec_wrTdh, unlessEnabled_of_disabled off, cursorWrite_of_bad bad]
  · rw [exec_wrRdh, unlessEnabled_of_disabled off, cursorWrite_of_bad bad]
  · rw [exec_wrTdh, unlessEnabled_of_disabled off, cursorWrite_of_good good]
  · rw [exec_wrRdh, unlessEnabled_of_disabled off, cursorWrite_of_good good]

/-- Settles O15: a tail write has the range check alone, and the ownership after it is the cyclic interval up to the
stored tail. -/
theorem tailAccess : Obligations.TailAccess := by
  refine ⟨Reg.keys .tdt, Reg.keys .rdt, fun s => congrArg Host.Outcome.next (getsWord_cursor s _),
    fun s => congrArg Host.Outcome.next (getsWord_cursor s _), fun s v bad => ?_, fun s v bad => ?_, fun s v good => ?_,
    fun s v good => ?_, fun s legal head i => ?_, fun s eight legal head i => ?_⟩
  · rw [exec_wrTdt, cursorWrite_of_bad bad]
  · rw [exec_wrRdt, cursorWrite_of_bad bad]
  · have stores := (exec_wrTdt v s).trans (cursorWrite_of_good good _ _ _)
    exact ⟨stores, fun same => by rw [stores, same],
      fun onto => not_owns_of_tail_written_onto_head (v := s.txRing) good onto⟩
  · have stores := (exec_wrRdt v s).trans (cursorWrite_of_good good _ _ _)
    exact ⟨stores, fun same => by rw [stores, same],
      fun onto => not_owns_of_tail_written_onto_head (v := s.rxRing) good onto⟩
  · have ring := (size_of_legal legal).2.1
    have tail : (1 : Half).toNat < Stated.size s.tdlen := Nat.lt_of_lt_of_le (by decide) ring
    exact (owns_iff_lt_tail (v := { s.txRing with tail := 1 }) legal head tail i).trans Nat.lt_one_iff
  · have tail : (7 : Half).toNat < Stated.size s.rdlen := eight ▸ (by decide)
    exact owns_iff_lt_tail (v := { s.rxRing with tail := 7 }) legal head tail i

end Sys2Proof.Machine
end

section
/-! SUPPORT. The transmit engine's step (R255 to R264): when it has none, and what it does with an admitted descriptor. -/

namespace Sys2Proof.Machine

open Sys2Proof.Stated

/-! ### No step -/

/-- Disabled, or owning nothing, the transmit engine has no step (R264). -/
theorem txCanStep_eq_false {s : State} (h : s.tctl.getLsbD 1 = false ∨ s.tdh = s.tdt) : s.txCanStep = false := by
  refine Bool.eq_false_iff.2 fun canStep => ?_
  obtain ⟨on, differ, -⟩ := (txCanStep_iff s).1 canStep
  rcases h with off | meet
  · exact Bool.false_ne_true (off.symm.trans on)
  · exact differ meet

section
variable {s : State} (h : s.txCanStep = false)
include h

theorem txEngineStep_of_idle : txEngineStep s = .next s := if_neg (Bool.eq_false_iff.1 h)

theorem exec_txd_of_idle (d : TxDesc) : exec (.txd d) s = .next s :=
  if_pos (by rw [h]; rfl)

theorem exec_txdExt_of_idle (d : TxDesc) : exec (.txdExt d) s = .next s :=
  if_pos (by rw [h]; rfl)

end

/-! ### The frame's part -/

section
variable {d : TxDesc} (s : State)

theorem txTake_of_eop (eop : d.cmd.getLsbD 0 = true) :
    txTake d s = { s with
      txAccum := []
      history := s.history ++ [.txFrame (Config.wireImage
        (s.txAccum ++ readBytes s.mem d.bufferAddr d.length.toNat) (d.cmd.getLsbD 1) (s.tctl.getLsbD 3))] } :=
  if_pos eop

theorem txTake_of_not_eop (more : d.cmd.getLsbD 0 = false) :
    txTake d s = { s with txAccum := s.txAccum ++ readBytes s.mem d.bufferAddr d.length.toNat } :=
  if_neg (Bool.eq_false_iff.1 more)

/-- The frame's part of a step changes `tx_accum` and the history only. -/
theorem txTake_frame (d : TxDesc) :
    ∃ acc hist, txTake d s = { s with txAccum := acc, history := hist } := by
  cases eop : d.cmd.getLsbD 0
  · exact ⟨_, _, txTake_of_not_eop s eop⟩
  · exact ⟨_, _, txTake_of_eop s eop⟩

/-! ### The write-back -/

theorem txWriteBack_of_rs (rs : d.cmd.getLsbD 3 = true) (da : Addr) :
    txWriteBack d da s =
      { s with mem := writeBytes s.mem (da + 12) [txStatus (s.drawn 7)], draws := s.draws + 1 } :=
  if_pos rs

theorem txWriteBack_of_not_rs (silent : d.cmd.getLsbD 3 = false) (da : Addr) : txWriteBack d da s = s :=
  if_neg (Bool.eq_false_iff.1 silent)

/-- The write-back changes memory and the draws only. -/
theorem txWriteBack_frame (d : TxDesc) (da : Addr) :
    ∃ m n, txWriteBack d da s = { s with mem := m, draws := n } := by
  cases rs : d.cmd.getLsbD 3
  · exact ⟨_, _, txWriteBack_of_not_rs s rs da⟩
  · exact ⟨_, _, txWriteBack_of_rs s rs da⟩

end

/-- A one-byte write is read back at its own address and nowhere else. -/
theorem memGet_writeByte (m : Memory) (a x : Addr) (b : Byte) :
    memGet (writeBytes m a [b]) x.toNat = if x = a then b else memGet m x.toNat := by
  simp only [writeBytes, memGet_memSet, BitVec.toNat_inj]

/-! ### An admitted descriptor -/

/-- A transmit step misses no byte exactly when its buffer, and with RS = 1 its status byte, are in `MEM` (R256). -/
theorem txMissing_eq_none_iff (d : TxDesc) (da : Addr) (s : State) :
    txMissing d da s = none ↔
      InMem s d.bufferAddr d.length.toNat ∧ (d.cmd.getLsbD 3 = true → InMem s (da + 12) 1) := by
  rw [txMissing, Option.or_eq_none_iff, firstMissing_eq_none_iff, cmdRs]
  cases d.cmd.getLsbD 3 <;> simp [firstMissing_eq_none_iff]

/-- The next index is (i + 1) mod N (R44). -/
theorem RingView.next_toNat {v : RingView} (legal : Legal v.len) (i : Nat) :
    (v.next i).toNat = (i + 1) % Stated.size v.len := by
  have small := (size_of_legal legal).2.2
  have below := Nat.mod_lt (i + 1) (size_pos legal)
  rw [RingView.next, BitVec.toNat_ofNat, size_eq, Nat.mod_eq_of_lt (by omega)]

/-- A descriptor that passes the checks of R256 runs: the frame's part, the write-back, and the head's advance. -/
theorem exec_txd_of_admitted {d : TxDesc} {s : State} (canStep : s.txCanStep = true) (ic : d.cmd.getLsbD 2 = false)
    (bit4 : d.cmd.getLsbD 4 = false) (vle : d.cmd.getLsbD 6 = false) (nonempty : 0 < d.length.toNat)
    (short : d.length.toNat ≤ 16288) (present : txMissing d (txDescAddr s s.tdh.toNat) s = none) :
    exec (.txd d) s = .next { txWriteBack d (txDescAddr s s.tdh.toNat) (txTake d s) with
      tdh := s.txRing.next s.tdh.toNat } := by
  have modelled : cmdUnmodelled d.cmd = false := by
    rw [cmdUnmodelled, cmdIc, cmdBit4, cmdVle, ic, bit4, vle]; rfl
  have lengthOk : ¬ ((decide (d.length.toNat = 0) || decide (d.length.toNat > Config.maxTxDescLen)) = true) := by
    rw [Bool.or_eq_true, decide_eq_true_iff, decide_eq_true_iff]
    exact not_or.2 ⟨nonempty.ne', Nat.not_lt.2 short⟩
  change txMissing d (s.txRing.descAddr s.tdh.toNat) s = none at present
  simp only [exec, execTxd, canStep, modelled, present, if_neg lengthOk, Bool.not_true, Bool.false_eq_true, if_false]
  rfl

end Sys2Proof.Machine
end

section
/-! PROOFS. The transmit engine's step on an admitted descriptor (R257), and when it has none (R264). -/

namespace Sys2Proof.Machine

open Sys2Proof.Stated

/-- Settles O32: the step is the frame's part, then the write-back, then the head's advance, each with its own frame. -/
theorem transmitDescriptorRuns : Obligations.TransmitDescriptorRuns := by
  intro d s canStep ic bit4 vle nonempty short buffer status
  have present := (txMissing_eq_none_iff d (txDescAddr s s.tdh.toNat) s).2 ⟨buffer, status⟩
  refine ⟨_, exec_txd_of_admitted canStep ic bit4 vle nonempty short present, fun eop => ?_, fun more => ?_,
    fun rs => ?_, fun silent => ?_, fun legal => RingView.next_toNat legal _, ?_⟩
  · obtain ⟨m, n, back⟩ := txWriteBack_frame (txTake d s) d (txDescAddr s s.tdh.toNat)
    rw [back, txTake_of_eop s eop]
    exact ⟨rfl, rfl⟩
  · obtain ⟨m, n, back⟩ := txWriteBack_frame (txTake d s) d (txDescAddr s s.tdh.toNat)
    rw [back, txTake_of_not_eop s more]
    exact ⟨rfl, rfl⟩
  · obtain ⟨acc, hist, take⟩ := txTake_frame s d
    rw [txWriteBack_of_rs _ rs, take]
    refine ⟨⟨s.drawn 7, ?_⟩, fun x other => ?_⟩
    · exact (memGet_writeByte s.mem _ _ _).trans (if_pos rfl)
    · exact (memGet_writeByte s.mem _ x _).trans (if_neg other)
  · obtain ⟨acc, hist, take⟩ := txTake_frame s d
    rw [txWriteBack_of_not_rs _ silent, take]
    exact ⟨rfl, rfl⟩
  · obtain ⟨acc, hist, take⟩ := txTake_frame s d
    obtain ⟨m, n, back⟩ := txWriteBack_frame (txTake d s) d (txDescAddr s s.tdh.toNat)
    rw [back, take]

/-- Settles O35: without a step the engine's turn and both its forms answer the state itself. -/
theorem transmitEngineIdle : Obligations.TransmitEngineIdle := by
  intro s h
  have idle := txCanStep_eq_false h
  exact ⟨txEngineStep_of_idle idle, exec_txd_of_idle idle, exec_txdExt_of_idle idle⟩

end Sys2Proof.Machine
end

section
/-! SUPPORT. TIPG in the device agents' steps (R247): each step, from the state with another value in TIPG, is the step
with that value put in afterwards. -/

namespace Sys2Proof.Machine

/-- The state with another value in TIPG. -/
def State.setTipg (v : Word) (s : State) : State := { s with tipg := v }

/-- The same outcome, with a next state changed by `g`. -/
def mapNext (g : State → State) : Out → Out
  | .next t => .next (g t)
  | .fault f => .fault f
  | .refused f => .refused f

/-- A test with the same answer leaves it to the branches. -/
theorem ite_eq_map_ite {α β : Type} {g : α → β} {c c' : Prop} [Decidable c] [Decidable c'] {a b : α} {a' b' : β}
    (test : c' ↔ c) (yes : a' = g a) (no : b' = g b) : (if c' then a' else b') = g (if c then a else b) := by
  by_cases h : c
  · rw [if_pos h, if_pos (test.2 h), yes]
  · rw [if_neg h, if_neg (mt test.1 h), no]

section
variable (v : Word) (s : State)

/-! ### What the engines look up -/

@[simp] theorem setTipg_memMap : (s.setTipg v).memMap = s.memMap := rfl
@[simp] theorem setTipg_txRing : (s.setTipg v).txRing = s.txRing := rfl
@[simp] theorem setTipg_rxRing : (s.setTipg v).rxRing = s.rxRing := rfl
@[simp] theorem setTipg_tdh : (s.setTipg v).tdh = s.tdh := rfl
@[simp] theorem setTipg_rdh : (s.setTipg v).rdh = s.rdh := rfl
@[simp] theorem setTipg_rctl : (s.setTipg v).rctl = s.rctl := rfl
@[simp] theorem setTipg_rxFifo : (s.setTipg v).rxFifo = s.rxFifo := rfl
@[simp] theorem setTipg_filter (f : List Byte) : filter f (s.setTipg v) = filter f s := rfl
@[simp] theorem setTipg_descBits (da : Addr) : descBits (s.setTipg v) da = descBits s da := rfl
@[simp] theorem setTipg_txMissing (d : TxDesc) (da : Addr) : txMissing d da (s.setTipg v) = txMissing d da s := rfl
@[simp] theorem setTipg_rxMissing (b da : Addr) (n : Nat) : rxMissing b da n (s.setTipg v) = rxMissing b da n s := rfl

/-! ### The transmit engine -/

theorem txTake_setTipg (d : TxDesc) : txTake d (s.setTipg v) = (txTake d s).setTipg v :=
  ite_eq_map_ite .rfl rfl rfl

theorem txWriteBack_setTipg (d : TxDesc) (da : Addr) :
    txWriteBack d da (s.setTipg v) = (txWriteBack d da s).setTipg v :=
  ite_eq_map_ite .rfl rfl rfl

theorem execTxd_setTipg (d : TxDesc) : execTxd d (s.setTipg v) = mapNext (State.setTipg v) (execTxd d s) := by
  refine ite_eq_map_ite .rfl rfl (ite_eq_map_ite .rfl rfl (ite_eq_map_ite .rfl rfl ?_))
  simp only [setTipg_txRing, setTipg_tdh, setTipg_txMissing, txTake_setTipg, txWriteBack_setTipg]
  cases txMissing d (s.txRing.descAddr s.tdh.toNat) s <;> rfl

theorem execTxdExt_setTipg (d : TxDesc) : execTxdExt d (s.setTipg v) = mapNext (State.setTipg v) (execTxdExt d s) :=
  ite_eq_map_ite .rfl rfl rfl

/-- A transmit descriptor runs as TXD or as TXD_EXT (R154). -/
theorem runCode_txDesc_setTipg (b : BitVec 128) :
    runCode (.txDesc b) (s.setTipg v) = mapNext (State.setTipg v) (runCode (.txDesc b) s) := by
  simp only [runCode, decode, decodeTxDesc]
  split
  · exact execTxdExt_setTipg v s (.ofBits b)
  · exact execTxd_setTipg v s (.ofBits b)

theorem txEngineStep_setTipg : txEngineStep (s.setTipg v) = mapNext (State.setTipg v) (txEngineStep s) := by
  refine ite_eq_map_ite .rfl ?_ rfl
  simp only [setTipg_txRing, setTipg_tdh, setTipg_memMap, setTipg_descBits, runCode_txDesc_setTipg]
  cases firstMissing s.memMap (s.txRing.descAddr s.tdh.toNat) Config.descSize <;> rfl

/-! ### The receive engine -/

theorem execRxd_setTipg (d : RxDesc) : execRxd d (s.setTipg v) = mapNext (State.setTipg v) (execRxd d s) := by
  refine ite_eq_map_ite .rfl rfl (ite_eq_map_ite .rfl rfl ?_)
  simp only [setTipg_rxRing, setTipg_rdh, setTipg_rctl, setTipg_rxFifo, setTipg_rxMissing]
  cases rxMissing d.bufferAddr (s.rxRing.descAddr s.rdh.toNat) (storedBytes s.rctl (s.rxFifo.headD [])).length s <;> rfl

theorem runCode_rxDesc_setTipg (b : BitVec 128) :
    runCode (.rxDesc b) (s.setTipg v) = mapNext (State.setTipg v) (runCode (.rxDesc b) s) :=
  execRxd_setTipg v s (.ofBits b)

theorem rxEngineStep_setTipg : rxEngineStep (s.setTipg v) = mapNext (State.setTipg v) (rxEngineStep s) := by
  refine ite_eq_map_ite .rfl (ite_eq_map_ite .rfl rfl ?_) rfl
  simp only [setTipg_rxRing, setTipg_rdh, setTipg_memMap, setTipg_descBits, runCode_rxDesc_setTipg]
  cases firstMissing s.memMap (s.rxRing.descAddr s.rdh.toNat) 8 <;> rfl

/-! ### The other agents -/

theorem rxTimerStep_setTipg : rxTimerStep (s.setTipg v) = (rxTimerStep s).setTipg v :=
  ite_eq_map_ite .rfl rfl rfl

theorem eepromStep_setTipg : eepromStep (s.setTipg v) = (eepromStep s).setTipg v :=
  ite_eq_map_ite .rfl (ite_eq_map_ite .rfl rfl rfl) rfl

theorem otherCauseStep_setTipg : otherCauseStep (s.setTipg v) = (otherCauseStep s).setTipg v :=
  ite_eq_map_ite .rfl rfl rfl

theorem deliverStep_setTipg (spurious : Bool) :
    deliverStep spurious (s.setTipg v) = (deliverStep spurious s).setTipg v :=
  ite_eq_map_ite .rfl rfl rfl

theorem enqueue_setTipg (f : List Byte) : enqueue f (s.setTipg v) = (enqueue f s).setTipg v :=
  ite_eq_map_ite .rfl rfl rfl

theorem filtered_setTipg (f : List Byte) : filtered f (s.setTipg v) = (filtered f s).setTipg v := by
  rw [filtered, filtered, setTipg_filter]
  cases filter f s with
  | refused => rfl
  | accept => exact enqueue_setTipg v s f
  | drop => rfl
  | either => exact ite_eq_map_ite .rfl (enqueue_setTipg v s.afterDraw f) rfl

theorem rxArrive_setTipg (f : List Byte) (ok : Bool) : rxArrive f ok (s.setTipg v) = (rxArrive f ok s).setTipg v :=
  ite_eq_map_ite .rfl rfl (ite_eq_map_ite .rfl rfl (ite_eq_map_ite .rfl rfl
    (ite_eq_map_ite .rfl rfl (filtered_setTipg v s f))))

end

/-- A device agent's turn neither reads TIPG nor writes it. -/
theorem runTurn_setTipg {τ : Turn} (device : Stated.DeviceTurn τ) (v : Word) (s : State) :
    runTurn τ (s.setTipg v) = mapNext (State.setTipg v) (runTurn τ s) := by
  cases τ with
  | host => exact absurd rfl device
  | txEngine => exact txEngineStep_setTipg v s
  | rxEngine => exact rxEngineStep_setTipg v s
  | rxTimer => exact congrArg Host.Outcome.next (rxTimerStep_setTipg v s)
  | eeprom => exact congrArg Host.Outcome.next (eepromStep_setTipg v s)
  | otherCause => exact congrArg Host.Outcome.next (otherCauseStep_setTipg v s)
  | wire f ok => exact congrArg Host.Outcome.next (rxArrive_setTipg v s f ok)
  | deliver => exact congrArg Host.Outcome.next (deliverStep_setTipg v s false)
  | spurious => exact congrArg Host.Outcome.next (deliverStep_setTipg v s true)
  | terminate => rfl

end Sys2Proof.Machine
end

section
/-! PROOFS. TIPG is stored and has no effect (R247). -/

namespace Sys2Proof.Machine

/-- Settles O46: no device agent's step reads TIPG, so each commutes with a change of it. -/
theorem tipgMakesNoDifference : Obligations.TipgMakesNoDifference := by
  refine ⟨Reg.keys .tipg, fun _ => rfl, fun _ _ => rfl, fun τ v s t device h => ?_⟩
  exact (runTurn_setTipg device v s).trans (congrArg (mapNext (State.setTipg v)) h)

end Sys2Proof.Machine
end

section
/-! SUPPORT. The host's steps of a transmit up to its two RingFull tests (R270 to R272), and the caller errors (R271,
R341). -/

namespace Sys2Proof.Machine

open Sys2Proof.Stated

/-! ### One access of a duty -/

/-- A duty's register read runs the register's read rule, with the commands that come after it already in place. -/
theorem runThen_rdReg (reg : Reg) (after : List HostCmd) (s : State) :
    runThen (rdReg reg) after s = readRule reg (s.pushCode after) :=
  (runCode_of_access_ok (decodeAccess_rd reg) _).trans (exec_readInstr reg _)

/-- A duty's read of one byte that is in `MEM` and in no owned buffer returns the byte (R206). -/
theorem runThen_ldByte {a : Addr} {s : State} (mapped : InMem s a 1) (free : s.ownedBufferMeets a 1 = false)
    (after : List HostCmd) :
    runThen (ldByte a) after s = .next ((s.pushCode after).gets ((memGet s.mem a.toNat).setWidth 64)) := by
  have aligned : naturallyAligned .one a = true := (naturallyAligned_iff .one a).2 (Nat.mod_one _)
  have value : BitVec.ofNat 64 (leNat (readBytes s.mem a 1)) = (memGet s.mem a.toNat).setWidth 64 :=
    BitVec.ofNat_toNat 64 _
  have reads := hostReads_of_free (s := s.pushCode after) ⟨aligned, mapped⟩ free
    (fun bytes => (s.pushCode after).gets (BitVec.ofNat 64 (leNat bytes)))
  exact reads.trans (congrArg (fun x => Host.Outcome.next ((s.pushCode after).gets x)) value)

/-- After a status byte is read, bit 0 of the value is its DD (R152, R161). -/
theorem getLsbD_zero_setWidth (b : Byte) : (b.setWidth 64).getLsbD 0 = b.getLsbD 0 := by
  rw [BitVec.getLsbD_setWidth]; rfl

/-! ### The steps of a transmit -/

section
variable {s : State} {rest : List HostCmd} {p : List Byte}

/-- A packet that fails the length check is reported at once (R271). -/
theorem runTurn_transmit_of_oversized (code : s.code = .transmit p :: rest)
    (h : s.drv.txBufSize ≤ p.length ∨ p.length = 0) :
    runTurn .host s = .next { s with code := rest, results := .oversizedPacket :: s.results } := by
  rw [runTurn_host_of_code code]
  exact if_pos (by simpa using h)

/-- A packet that passes it: `rd TDT`. -/
theorem runTurn_transmit (code : s.code = .transmit p :: rest) (nonempty : 0 < p.length)
    (fits : p.length < s.drv.txBufSize) :
    runTurn .host s = .next { s with code := .txSlot p :: rest, r := s.tdt.setWidth 64 } := by
  have accepted : ¬ ((decide (s.drv.txBufSize ≤ p.length) || decide (p.length = 0)) = true) := by
    simp only [Bool.or_eq_true, decide_eq_true_iff]
    omega
  rw [runTurn_host_of_code code]
  refine (if_neg accepted).trans ((runThen_rdReg .tdt _ _).trans ?_)
  exact congrArg Host.Outcome.next (getsWord_cursor _ s.tdt)

/-- The tail `t` was read: the status byte of slot t. -/
theorem runTurn_txSlot (code : s.code = .txSlot p :: rest) {a : Addr} (slot : a = txField s.drv s.r.toNat 12)
    (mapped : InMem s a 1) (free : s.ownedBufferMeets a 1 = false) :
    runTurn .host s =
      .next { s with code := .txNext p s.r.toNat :: rest, r := (memGet s.mem a.toNat).setWidth 64 } := by
  subst slot
  rw [runTurn_host_of_code code]
  exact runThen_ldByte (s := { s with code := rest }) mapped free _

/-- Slot t is not done: RingFull (R272). -/
theorem runTurn_txNext_of_not_done {t : Nat} (code : s.code = .txNext p t :: rest) (dd : s.r.getLsbD 0 = false) :
    runTurn .host s = .next { s with code := rest, results := .ringFull :: s.results } := by
  rw [runTurn_host_of_code code]
  exact if_neg (Bool.eq_false_iff.1 dd)

/-- Slot t is done: the status byte of the slot after it. -/
theorem runTurn_txNext_of_done {t : Nat} (code : s.code = .txNext p t :: rest) (dd : s.r.getLsbD 0 = true) {b : Addr}
    (slot : b = txField s.drv (slotAfter t s.drv.nTx) 12) (mapped : InMem s b 1)
    (free : s.ownedBufferMeets b 1 = false) :
    runTurn .host s = .next { s with code := .txQueue p t :: rest, r := (memGet s.mem b.toNat).setWidth 64 } := by
  subst slot
  rw [runTurn_host_of_code code]
  exact (if_pos dd).trans (runThen_ldByte (s := { s with code := rest }) mapped free _)

/-- The slot after t is not done: RingFull (R272). -/
theorem runTurn_txQueue_of_not_done {t : Nat} (code : s.code = .txQueue p t :: rest) (dd : s.r.getLsbD 0 = false) :
    runTurn .host s = .next { s with code := rest, results := .ringFull :: s.results } := by
  rw [runTurn_host_of_code code]
  exact if_neg (Bool.eq_false_iff.1 dd)

/-! ### The first step of a receive -/

/-- A destination that is too small is reported at once (R341). -/
theorem runTurn_receive_of_small {n : Nat} (code : s.code = .receive n :: rest) (small : n < 2048) :
    runTurn .host s = .next { s with code := rest, results := .bufferTooSmall :: s.results } := by
  rw [runTurn_host_of_code code]
  exact if_pos small

end

end Sys2Proof.Machine
end

section
/-! PROOFS. The host's reports without a write: the caller errors (R271, R341) and RingFull (R272). -/

namespace Sys2Proof.Machine

open Sys2Proof.Stated

/-- Settles O52: each length check answers before the access it guards. -/
theorem callerErrorsMakeNoAccess : Obligations.CallerErrorsMakeNoAccess :=
  ⟨fun _ _ _ code bad => runTurn_transmit_of_oversized code bad,
    fun _ _ _ code small => runTurn_receive_of_small code small⟩

/-- Settles O53: the register read, the slot's status byte, and where that is done the next slot's, each test answering
from the value just read. -/
theorem ringFullIsReportedWithoutWrite : Obligations.RingFullIsReportedWithoutWrite := by
  intro s rest p a b code nonempty fits hereAddr nextAddr hereMapped hereFree nextMapped nextFree
  have tail : (s.tdt.setWidth 64).toNat = s.tdt.toNat := BitVec.toNat_setWidth_of_le (by decide)
  have readTail := runTurn_transmit code nonempty fits
  have readHere := runTurn_txSlot (s := { s with code := .txSlot p :: rest, r := s.tdt.setWidth 64 }) rfl
    (a := a) (by rw [hereAddr, txField, tail]) hereMapped hereFree
  refine ⟨fun full => ?_, fun done full => ?_⟩
  · rw [← getLsbD_zero_setWidth] at full
    exact ⟨_, _, _, readTail, readHere, runTurn_txNext_of_not_done rfl full, rfl⟩
  · rw [← getLsbD_zero_setWidth] at done full
    have readNext := runTurn_txNext_of_done rfl (s := { s with
      code := .txNext p (s.tdt.setWidth 64).toNat :: rest, r := (memGet s.mem a.toNat).setWidth 64 }) done
      (b := b) (by rw [nextAddr, txField, slotAfter, tail]) nextMapped nextFree
    exact ⟨_, _, _, _, readTail, readHere, readNext, runTurn_txQueue_of_not_done rfl full, rfl⟩

end Sys2Proof.Machine
end

section
/-! SUPPORT. The enable write of RCTL (R305), and the receive engine's step (R320 to R327): when it has none, and what it
does with the frame at the head of the FIFO. -/

namespace Sys2Proof.Machine

open Sys2Proof.Stated

theorem exec_wrRctl_of_en {v : Word} (h : v.getLsbD 1 = true) (s : State) :
    exec (.wrRctl v) s =
      .next (enableChecks s.rxRing s.rdbal .rdh .rdt .rctl v rctlRefused { s with rctl := v }) :=
  if_pos h

/-! ### No step -/

/-- Disabled, owning nothing, or with no frame queued, the receive engine has no step (R327). -/
theorem rxCanStep_eq_false {s : State} (h : s.rctl.getLsbD 1 = false ∨ s.rdh = s.rdt ∨ s.rxFifo = []) :
    s.rxCanStep = false := by
  refine Bool.eq_false_iff.2 fun canStep => ?_
  obtain ⟨on, differ, queued, -⟩ := (rxCanStep_iff s).1 canStep
  rcases h with off | meet | empty
  · exact Bool.false_ne_true (off.symm.trans on)
  · exact differ meet
  · exact queued empty

section
variable {s : State} (h : s.rxCanStep = false)
include h

theorem rxEngineStep_of_idle : rxEngineStep s = .next s := if_neg (Bool.eq_false_iff.1 h)

theorem exec_rxd_of_idle (d : RxDesc) : exec (.rxd d) s = .next s :=
  if_pos (by rw [h]; rfl)

end

/-! ### The write-back -/

/-- A shorter read is the beginning of a longer one. -/
theorem readBytes_take (m : Memory) (a : Addr) (n k : Nat) : (readBytes m a (n + k)).take n = readBytes m a n := by
  induction n generalizing a with
  | zero => rfl
  | succ n ih => rw [Nat.succ_add, readBytes, List.take_succ_cons, ih, readBytes]

theorem rxWriteBackBytes_length (length draws : Nat) : (rxWriteBackBytes length draws).length = 8 := rfl

/-- The write-back begins with the length, which a stored frame keeps within two bytes. -/
theorem leNat_rxWriteBackBytes_take {length : Nat} (h : length < 256 ^ 2) (draws : Nat) :
    leNat ((rxWriteBackBytes length draws).take 2) = length :=
  (leNat_leBytes 2 length).trans (Nat.mod_eq_of_lt h)

section
variable (m : Memory) (w : Addr) (length draws : Nat)

/-- The length field reads back as the length. -/
theorem leNat_readBytes_rxWriteBack (h : length < 256 ^ 2) :
    leNat (readBytes (writeBytes m w (rxWriteBackBytes length draws)) w 2) = length := by
  have back := readBytes_writeBytes m w (rxWriteBackBytes length draws) (by rw [rxWriteBackBytes_length]; decide)
  rw [rxWriteBackBytes_length] at back
  rw [← readBytes_take _ w 2 6, back, leNat_rxWriteBackBytes_take h]

/-- The fifth byte written back is the status byte. -/
theorem memGet_rxWriteBack_status :
    memGet (writeBytes m w (rxWriteBackBytes length draws)) (w + 4).toNat = rxStatus (Config.draw 6 (draws + 2)) := by
  have place : (w + 4 - w).toNat = 4 := by rw [BitVec.add_comm, BitVec.add_sub_cancel]; rfl
  rw [memGet_writeBytes _ _ _ (by rw [rxWriteBackBytes_length]; decide), place]
  rfl

/-- Outside the eight bytes written back memory is as before. -/
theorem memGet_rxWriteBack_outside {x : Addr} (h : ¬ Inside x w 8) :
    memGet (writeBytes m w (rxWriteBackBytes length draws)) x.toNat = memGet m x.toNat :=
  (memGet_writeBytes _ _ _ (by rw [rxWriteBackBytes_length]; decide) x).trans (if_neg h)

end

/-! ### A frame that fits -/

theorem rxMissing_eq_none_iff (buffer da : Addr) (n : Nat) (s : State) :
    rxMissing buffer da n s = none ↔ InMem s buffer n ∧ InMem s (da + 8) 8 := by
  rw [rxMissing, Option.or_eq_none_iff, firstMissing_eq_none_iff, firstMissing_eq_none_iff]

/-- A buffer RCTL selects has at most 2048 bytes (R305). -/
theorem rxBufferSize_le (rctl : Word) : rxBufferSize rctl ≤ 2048 := Nat.div_le_self _ _

/-- What the step leaves of a frame whose stored bytes fit and are all in `MEM`: the frame is stored, then the
write-back (R325). -/
def rxStored (d : RxDesc) (f : List Byte) (q : List (List Byte)) (s : State) : State :=
  let bytes := storedBytes s.rctl f
  { s with
    mem := writeBytes (writeBytes s.mem d.bufferAddr bytes) (rxDescAddr s s.rdh.toNat + 8)
      (rxWriteBackBytes bytes.length s.draws)
    draws := s.draws + 4
    rxFifo := q
    rdh := s.rxRing.next s.rdh.toNat
    rxTimerArmed := true }

theorem exec_rxd_of_fits {d : RxDesc} {s : State} {f : List Byte} {q : List (List Byte)} (canStep : s.rxCanStep = true)
    (fifo : s.rxFifo = f :: q) (fits : (storedBytes s.rctl f).length ≤ rxBufferSize s.rctl)
    (buffer : InMem s d.bufferAddr (storedBytes s.rctl f).length)
    (status : InMem s (rxDescAddr s s.rdh.toNat + 8) 8) :
    exec (.rxd d) s = .next (rxStored d f q s) := by
  have present : rxMissing d.bufferAddr (s.rxRing.descAddr s.rdh.toNat) (storedBytes s.rctl f).length s = none :=
    (rxMissing_eq_none_iff _ _ _ _).2 ⟨buffer, status⟩
  simp only [exec, execRxd, canStep, fifo, List.headD_cons, List.tail_cons, present, if_neg (Nat.not_lt.2 fits),
    Bool.not_true, Bool.false_eq_true, if_false]
  rfl

end Sys2Proof.Machine
end

section
/-! PROOFS. The receive base and length registers (R300 to R302), and the receive engine's step (R325, R327). -/

namespace Sys2Proof.Machine

open Sys2Proof.Stated

/-- Settles O13: EN guards each write, and the first two enable checks are those of the length and the base. -/
theorem receiveBaseAndLengthAccess : Obligations.ReceiveBaseAndLengthAccess := by
  refine ⟨Reg.keys .rdbal, Reg.keys .rdbah, Reg.keys .rdlen, fun _ => rfl, fun _ => rfl, fun _ => rfl,
    fun s v off => ?_, fun s v on => ?_, fun s v legal misaligned on => ?_, fun s v illegal on => ?_,
    fun s v illegal nonzero => ?_, (lenLegal_iff _).1 (by decide), rfl⟩
  · exact ⟨unlessEnabled_of_disabled off _ _ _, unlessEnabled_of_disabled off _ _ _, exec_wrRdlen_of_disabled off⟩
  · exact ⟨unlessEnabled_of_enabled on _ _ _, unlessEnabled_of_enabled on _ _ _, unlessEnabled_of_enabled on _ _ _⟩
  · rw [exec_wrRctl_of_en on, enableChecks_of_misaligned _ _ _ _ _ _ _ legal misaligned]
  · rw [exec_wrRctl_of_en on, enableChecks_of_illegal _ _ _ _ _ _ _ illegal]
    rfl
  · have bad := cursorWrite_of_bad (.inr (.inr ⟨illegal, nonzero⟩))
    refine ⟨(exec_wrRdt v s).trans (bad _ _ _), fun off => ?_⟩
    rw [exec_wrRdh, unlessEnabled_of_disabled off, bad]

/-- Settles O36: two writes to memory, the later of which is the write-back, so that it wins where they meet. -/
theorem receiveDescriptorRuns : Obligations.ReceiveDescriptorRuns := by
  rintro d s f q _ canStep fifo rfl fits buffer status
  have short : (storedBytes s.rctl f).length ≤ 2048 := fits.trans (rxBufferSize_le s.rctl)
  refine ⟨rxStored d f q s, exec_rxd_of_fits canStep fifo fits buffer status, rfl, rfl,
    fun legal => RingView.next_toNat legal _, ?_, ⟨Config.draw 6 (s.draws + 2), ?_⟩, fun x outside => ?_, rfl⟩
  · exact leNat_readBytes_rxWriteBack _ _ _ _ (short.trans_lt (by decide))
  · have place : rxDescAddr s s.rdh.toNat + 12 = rxDescAddr s s.rdh.toNat + 8 + 4 := by rw [BitVec.add_assoc]; rfl
    rw [place]
    exact memGet_rxWriteBack_status _ _ _ _
  · have stored := memGet_writeBytes s.mem d.bufferAddr (storedBytes s.rctl f) (short.trans (by decide)) x
    have kept := (memGet_rxWriteBack_outside _ _ (storedBytes s.rctl f).length s.draws outside).trans stored
    exact ⟨fun inside => kept.trans (if_pos inside), fun out => kept.trans (if_neg out)⟩

/-- Settles O38: without a step the engine's turn and its form answer the state itself. -/
theorem receiveEngineIdle : Obligations.ReceiveEngineIdle := by
  intro s h
  have idle := rxCanStep_eq_false h
  exact ⟨rxEngineStep_of_idle idle, exec_rxd_of_idle idle⟩

end Sys2Proof.Machine
end

section
/-! SUPPORT. The host's steps of a receive up to its RingEmpty test, and of isEmpty (R340 to R343). -/

namespace Sys2Proof.Machine

open Sys2Proof.Stated

section
variable {s : State} {rest : List HostCmd}

/-! ### A command whose step is one read -/

section
variable {c after : HostCmd} (code : s.code = c :: rest)
include code

/-- A command that is `rd RDT`, then `after`. -/
theorem runTurn_of_rdRdt
    (runs : runCmd c { s with code := rest } = runThen (rdReg .rdt) [after] { s with code := rest }) :
    runTurn .host s = .next { s with code := after :: rest, r := s.rdt.setWidth 64 } := by
  rw [runTurn_host_of_code code, runs, runThen_rdReg]
  exact congrArg Host.Outcome.next (getsWord_cursor _ s.rdt)

/-- A command that is the read of a byte at an address the host may read, then `after`. -/
theorem runTurn_of_ldByte {a : Addr} (mapped : InMem s a 1) (free : s.ownedBufferMeets a 1 = false)
    (runs : runCmd c { s with code := rest } = runThen (ldByte a) [after] { s with code := rest }) :
    runTurn .host s = .next { s with code := after :: rest, r := (memGet s.mem a.toNat).setWidth 64 } := by
  rw [runTurn_host_of_code code, runs]
  exact runThen_ldByte (s := { s with code := rest }) mapped free _

end

/-! ### receive -/

/-- A destination that is large enough: `rd RDT`. -/
theorem runTurn_receive {n : Nat} (code : s.code = .receive n :: rest) (large : 2048 ≤ n) :
    runTurn .host s = .next { s with code := .rxSlot :: rest, r := s.rdt.setWidth 64 } :=
  runTurn_of_rdRdt code (if_neg (Nat.not_lt.2 large))

/-- The tail was read: the status byte of the slot after it. -/
theorem runTurn_rxSlot (code : s.code = .rxSlot :: rest) {i : Nat} (slot : i = slotAfter s.r.toNat s.drv.nRx)
    (mapped : InMem s (rxField s.drv i 12) 1) (free : s.ownedBufferMeets (rxField s.drv i 12) 1 = false) :
    runTurn .host s =
      .next { s with code := .rxLength i :: rest, r := (memGet s.mem (rxField s.drv i 12).toNat).setWidth 64 } :=
  runTurn_of_ldByte code mapped free (by rw [slot]; rfl)

/-- The slot is not done: RingEmpty (R342). -/
theorem runTurn_rxLength_of_not_done {i : Nat} (code : s.code = .rxLength i :: rest) (dd : s.r.getLsbD 0 = false) :
    runTurn .host s = .next { s with code := rest, results := .ringEmpty :: s.results } := by
  rw [runTurn_host_of_code code]
  exact if_neg (Bool.eq_false_iff.1 dd)

/-! ### isEmpty -/

theorem runTurn_isEmpty (code : s.code = .isEmpty :: rest) :
    runTurn .host s = .next { s with code := .emptySlot :: rest, r := s.rdt.setWidth 64 } :=
  runTurn_of_rdRdt code rfl

/-- The tail was read: the status byte of the slot after it. -/
theorem runTurn_emptySlot (code : s.code = .emptySlot :: rest) {i : Nat} (slot : i = slotAfter s.r.toNat s.drv.nRx)
    (mapped : InMem s (rxField s.drv i 12) 1) (free : s.ownedBufferMeets (rxField s.drv i 12) 1 = false) :
    runTurn .host s =
      .next { s with code := .emptyAnswer :: rest, r := (memGet s.mem (rxField s.drv i 12).toNat).setWidth 64 } :=
  runTurn_of_ldByte code mapped free (by rw [slot]; rfl)

theorem runTurn_emptyAnswer (code : s.code = .emptyAnswer :: rest) :
    runTurn .host s = .next { s with code := rest, results := .empty (!s.r.getLsbD 0) :: s.results } :=
  runTurn_host_of_code code

end

end Sys2Proof.Machine
end

section
/-! PROOFS. An empty ring is reported without a write (R342). -/

namespace Sys2Proof.Machine

open Sys2Proof.Stated

/-- Settles O55: the register read, the slot's status byte, and the answer from the value just read. -/
theorem emptyRingIsReportedWithoutWrite : Obligations.EmptyRingIsReportedWithoutWrite := by
  rintro s rest n _ rfl mapped free
  have slot : (s.rdt.toNat + 1) % s.drv.nRx = slotAfter (s.rdt.setWidth 64).toNat s.drv.nRx := by
    rw [slotAfter, BitVec.toNat_setWidth_of_le (by decide)]
  refine ⟨fun code large clear => ?_, fun code => ?_⟩
  · have readSlot := runTurn_rxSlot (s := { s with code := .rxSlot :: rest, r := s.rdt.setWidth 64 }) rfl slot
      mapped free
    rw [← getLsbD_zero_setWidth] at clear
    exact ⟨_, _, _, runTurn_receive code large, readSlot, runTurn_rxLength_of_not_done rfl clear, rfl⟩
  · have readSlot := runTurn_emptySlot (s := { s with code := .emptySlot :: rest, r := s.rdt.setWidth 64 }) rfl slot
      mapped free
    rw [← getLsbD_zero_setWidth]
    exact ⟨_, _, _, runTurn_isEmpty code, readSlot, runTurn_emptyAnswer rfl, rfl⟩

end Sys2Proof.Machine
end

section
/-! SUPPORT. A write of EERD (R360, R362): one equation per way it can go. -/

namespace Sys2Proof.Machine

section
variable {v : Word} {s : State}

/-- While a read is in progress the write is F14, with START or without. -/
theorem exec_wrEerd_of_busy (busy : s.eeBusy = true) : exec (.wrEerd v) s = .next (raise (.eepromBusy v) .host s) :=
  if_pos busy

section
variable (idle : s.eeBusy = false)
include idle

/-- Without START only ADDR is written. -/
theorem exec_wrEerd_of_no_start (noStart : v.getLsbD 0 = false) :
    exec (.wrEerd v) s = .next { s with eerdAddr := v.extractLsb' 8 8 } :=
  (if_neg (Bool.eq_false_iff.1 idle)).trans (if_neg (Bool.eq_false_iff.1 noStart))

/-- With START a read begins, and DATA is a free value until it ends. -/
theorem exec_wrEerd_of_start (start : v.getLsbD 0 = true) :
    exec (.wrEerd v) s = .next { s with
      eerdAddr := v.extractLsb' 8 8, eerdDone := false, eerdData := s.drawn 16, eeBusy := true, draws := s.draws + 1 } :=
  (if_neg (Bool.eq_false_iff.1 idle)).trans (if_pos start)

end
end

end Sys2Proof.Machine
end

section
/-! PROOFS. The accesses of EERD (R360 to R362). -/

namespace Sys2Proof.Machine

/-- Settles O23: the write's three ways are told apart by the read in progress and START; the free values are the drawn
DATA of a START write and the drawn START bit of a read. -/
theorem eerdAccess : Obligations.EerdAccess := by
  refine ⟨Reg.keys .eerd, fun s => ⟨fun v busy => ?_, fun v idle noStart => ?_, fun v idle start => ?_, ?_⟩⟩
  · exact exec_wrEerd_of_busy busy
  · exact exec_wrEerd_of_no_start idle noStart
  · exact ⟨s.drawn 16, exec_wrEerd_of_start idle start⟩
  · exact ⟨s.drawn 1, rfl⟩

end Sys2Proof.Machine
end

section
/-! SUPPORT. The latch and its mask (R48, R392 to R399): what setting and clearing causes does to the bits and to the
interrupt line (R63, R620). -/

namespace Sys2Proof.Machine

/-! ### The drain -/

/-- The drain's whole effect (R391). -/
theorem exec_rdIcr (s : State) : exec .rdIcr s = .next { s with
    icr := 0, history := s.history ++ [.drain (s.icr &&& causeMask)], r := (s.icr &&& causeMask).setWidth 64 } := rfl

/-! ### Causes -/

/-- A write of 0 clears nothing. -/
@[simp] theorem clearCauses_zero (x : Word) : clearCauses x 0 = x := BitVec.and_allOnes

/-- A write of 0 sets nothing. -/
@[simp] theorem setCauses_zero (x : Word) : setCauses x 0 = x := BitVec.or_zero

/-- Clearing with all ones empties a word of cause bits. -/
theorem clearCauses_allOnes {x : Word} (causes : x &&& ~~~causeMask = 0) : clearCauses x 0xFFFFFFFF = 0 := causes

/-- Clearing sets no bit. -/
theorem getLsbD_of_clearCauses {x v : Word} {k : Nat} (h : (clearCauses x v).getLsbD k = true) :
    x.getLsbD k = true := by
  rw [clearCauses, BitVec.getLsbD_and, Bool.and_eq_true] at h
  exact h.1

/-- A bit that setting causes added is a bit of the value written. -/
theorem getLsbD_of_setCauses {x v : Word} {k : Nat} (clear : x.getLsbD k = false)
    (h : (setCauses x v).getLsbD k = true) : v.getLsbD k = true := by
  rw [setCauses, BitVec.getLsbD_or, clear, Bool.false_or, BitVec.getLsbD_and, Bool.and_eq_true] at h
  exact h.1

/-- A word of cause bits has bits 31:17 clear (R48). -/
theorem extract_eq_zero_of_causes {x : Word} (causes : x &&& ~~~causeMask = 0) : x.extractLsb' 17 15 = 0 :=
  calc x.extractLsb' 17 15
    _ = x.extractLsb' 17 15 &&& (~~~causeMask).extractLsb' 17 15 := BitVec.and_allOnes.symm
    _ = (x &&& ~~~causeMask).extractLsb' 17 15 := BitVec.extractLsb'_and.symm
    _ = 0 := by rw [causes]; rfl

/-- The other-cause source draws no RXT0 (R405). -/
theorem otherCauses_rxt0 (drawn : Word) : (otherCauses drawn).getLsbD 7 = false := by
  unfold otherCauses
  split
  · rfl
  · rw [BitVec.getLsbD_and]
    exact Bool.and_false _

/-! ### The line -/

section
variable {s : State} {c : Word}

theorem line_eq_true_iff : s.line = true ↔ s.icr &&& s.mask ≠ 0 := bne_iff_ne

/-- Latching a cause that the mask does not enable leaves the line (R394). -/
theorem line_of_latched_masked (masked : c &&& s.mask = 0) : State.line { s with icr := s.icr ||| c } = s.line := by
  change ((s.icr ||| c) &&& s.mask != 0) = (s.icr &&& s.mask != 0)
  rw [BitVec.and_or_distrib_right, masked]
  exact congrArg (· != 0) BitVec.or_zero

/-- Enabling a cause that is latched asserts the line (R397, R620). -/
theorem line_of_enabled_latched (latched : s.icr &&& c ≠ 0) : State.line { s with mask := s.mask ||| c } = true := by
  refine line_eq_true_iff.2 fun deasserted => latched ?_
  rw [BitVec.and_or_distrib_left] at deasserted
  exact (BitVec.or_eq_zero_iff.1 deasserted).2

/-- With every cause masked the line is deasserted (R399). -/
theorem line_of_mask_eq_zero (h : s.mask = 0) : s.line = false := by
  rw [State.line, h]
  exact congrArg (· != 0) BitVec.and_zero

end

end Sys2Proof.Machine
end

section
/-! PROOFS. The latch at reset (R407), the drain (R391), and the accesses of ICR, ICS, IMS, IMC and STATUS (R204, R392 to
R400). -/

namespace Sys2Proof.Machine

/-- Settles O10: the state after reset, field by field. -/
theorem resetState : Obligations.ResetState := by
  unfold Obligations.ResetState
  decide

/-- Settles O19: the drain's rule as it stands, and its value where nothing is latched. -/
theorem drainReturnsAndClears : Obligations.DrainReturnsAndClears := by
  refine ⟨Reg.readKey .icr, exec_rdIcr, fun s empty => ?_⟩
  rw [exec_rdIcr, empty]
  rfl

/-- Settles O20: each write is its rule on the cause bits, and the line follows from what it left in ICR and the mask. -/
theorem causeWritesSetAndClear : Obligations.CauseWritesSetAndClear := by
  refine ⟨Reg.writeKey .icr, Reg.writeKey .ics, Reg.writeKey .ims, Reg.writeKey .imc, fun _ _ => rfl, fun _ _ => rfl,
    fun _ _ => rfl, fun _ _ => rfl, fun s t h => ?_, fun s t h => ?_, fun s t v masked h => ?_,
    fun s t v latched h => ?_, fun s t causes h => ?_⟩ <;> obtain rfl := Host.Outcome.next.inj h
  · rw [clearCauses_zero]
  · rw [setCauses_zero]
  · exact line_of_latched_masked masked
  · exact line_of_enabled_latched latched
  · have empty : clearCauses s.mask 0xFFFFFFFF = 0 := clearCauses_allOnes causes
    exact ⟨empty, line_of_mask_eq_zero empty⟩

/-- Settles O21: the mask holds cause bits by the invariant, and the other three values are the next draw. -/
theorem maskAndDrawnReads : Obligations.MaskAndDrawnReads :=
  ⟨Reg.readKey .status, Reg.readKey .ics, Reg.readKey .ims, Reg.readKey .imc, fun s =>
    ⟨rfl, fun inv => extract_eq_zero_of_causes inv.mask, ⟨s.drawn 32, rfl⟩, ⟨s.drawn 32, rfl⟩, ⟨s.drawn 32, rfl⟩⟩⟩

end Sys2Proof.Machine
end

section
/-! SUPPORT. Which codes decode to a write of ICS (R141, R142). -/

namespace Sys2Proof

/-- What an accepted access is (R142). -/
theorem decodeAccess_ok {a : Access} {i : Instr} (h : decodeAccess a = .ok i) :
    a.width = Config.regWidth
      ∧ ∃ reg : Reg, a.offset = reg.offset ∧ i = if a.write then reg.writeInstr a.data else reg.readInstr := by
  unfold decodeAccess at h
  split at h
  · cases h
  next width =>
    split at h
    · cases h
    next reg found => exact ⟨not_not.1 width, reg, decodeOffset_ok found, (Except.ok.inj h).symm⟩

theorem Reg.readInstr_ne_wrIcs (reg : Reg) (v : Word) : reg.readInstr ≠ .wrIcs v := by
  cases reg <;> nofun

theorem Reg.eq_ics_of_writeInstr {reg : Reg} {d v : Word} (h : reg.writeInstr d = .wrIcs v) : reg = .ics ∧ d = v := by
  cases reg <;> cases h
  exact ⟨rfl, rfl⟩

/-- Only a 32-bit write at ICS's offset decodes to a write of ICS (R141). -/
theorem eq_wr_ics_of_decode {c : Code} {v : Word} (h : decode c = .ok (.wrIcs v)) :
    c = .access (Access.wr Reg.ics.offset v) := by
  cases c with
  | access a =>
    obtain ⟨width, reg, offset, i⟩ := decodeAccess_ok h
    obtain ⟨w, write, o, d⟩ := a
    cases write with
    | false => exact absurd i.symm (reg.readInstr_ne_wrIcs v)
    | true =>
      obtain ⟨rfl, rfl⟩ := Reg.eq_ics_of_writeInstr i.symm
      obtain rfl : w = Config.regWidth := width
      obtain rfl : o = Reg.ics.offset := offset
      rfl
  | txDesc b =>
    simp only [decode, decodeTxDesc] at h
    split at h <;> cases h
  | rxDesc b => cases h
  | hostOp o => cases o <;> cases h

end Sys2Proof
end

section
/-! SUPPORT. Which steps latch no cause: every access but a write of ICS, and every agent's step but the receive timer's
and the other-cause source's (R330, R390, R394, R405). -/

namespace Sys2Proof.Machine

/-- A next state that the outcome `o` of a step from `s` answers has in ICR only causes latched in `s`. -/
def LatchesNothing (s : State) (o : Out) : Prop :=
  ∀ t, o = .next t → ∀ k, t.icr.getLsbD k = true → s.icr.getLsbD k = true

namespace LatchesNothing

variable {s t : State} {a b : Out}

/-- A next state with the same ICR. -/
theorem next (h : t.icr = s.icr) : LatchesNothing s (.next t) := by
  rintro _ ⟨⟩ k
  rw [h]
  exact id

/-- A test both of whose branches latch nothing. -/
theorem ite {c : Prop} [Decidable c] (yes : LatchesNothing s a) (no : LatchesNothing s b) :
    LatchesNothing s (if c then a else b) := by
  split
  · exact yes
  · exact no

end LatchesNothing

/-! ### The shared operations -/

section
variable (s : State)

@[simp] theorem rejectAccess_icr (e : AccessReject) : (rejectAccess e s).icr = s.icr := by
  cases e <;> rfl

@[simp] theorem enableChecks_icr (v : RingView) (bal : Word) (hd tl ctl : Reg) (x ref : Word) :
    (enableChecks v bal hd tl ctl x ref s).icr = s.icr := by
  rcases enableChecks_cases v bal hd tl ctl x ref s with ⟨f, h⟩ | ⟨f, h⟩ | ⟨h, -⟩ <;> rw [h]
  · exact raise_icr s f .host
  · exact refuse_icr s f .host

theorem hostReads_latchesNothing (al : Bool) (a : Addr) (n : Nat) {k : List Byte → State}
    (keeps : ∀ bytes, (k bytes).icr = s.icr) : LatchesNothing s (hostReads al a n s k) :=
  .ite (.next rfl) (.ite (.next rfl) (.next (keeps _)))

theorem hostWrites_latchesNothing (al : Bool) (a : Addr) (bytes : List Byte) :
    LatchesNothing s (hostWrites al a bytes s) :=
  .ite (.next rfl) (.ite (.next rfl) (.next rfl))

/-- A register read latches nothing; the drain clears what is latched. -/
theorem readRule_latchesNothing (reg : Reg) : LatchesNothing s (readRule reg s) := by
  rcases readRule_cases reg s with ⟨v, h⟩ | ⟨v, h⟩ | ⟨-, h⟩ <;> rw [h]
  · exact .next rfl
  · exact .next rfl
  · rintro _ ⟨⟩ k isSet
    exact absurd (BitVec.getLsbD_zero.symm.trans isSet) Bool.false_ne_true

theorem readThenWrite_latchesNothing (o : Nat) (upd : Word → Word) : LatchesNothing s (readThenWrite o upd s) := by
  intro t h
  rcases readThenWrite_cases h with ⟨e, -, rfl⟩ | ⟨reg, u, -, read, rfl⟩
  · exact LatchesNothing.next (rejectAccess_icr s e) _ rfl
  · exact readRule_latchesNothing s reg u read

/-! ### Instructions -/

@[simp] theorem txTake_icr (d : TxDesc) : (txTake d s).icr = s.icr := by
  obtain ⟨acc, hist, h⟩ := txTake_frame s d
  rw [h]

@[simp] theorem txWriteBack_icr (d : TxDesc) (da : Addr) : (txWriteBack d da s).icr = s.icr := by
  obtain ⟨mem, draws, h⟩ := txWriteBack_frame s d da
  rw [h]

theorem execTxd_latchesNothing (d : TxDesc) : LatchesNothing s (execTxd d s) := by
  refine .ite (.next rfl) (.ite (.next rfl) (.ite (.next rfl) ?_))
  split
  · exact .next rfl
  · exact .next ((txWriteBack_icr ..).trans (txTake_icr s d))

theorem execRxd_latchesNothing (d : RxDesc) : LatchesNothing s (execRxd d s) := by
  refine .ite (.next rfl) (.ite (.next rfl) ?_)
  split <;> exact .next rfl

/-- Every instruction but a write of ICS latches nothing. -/
theorem exec_latchesNothing {i : Instr} (notIcs : ∀ v, i ≠ .wrIcs v) : LatchesNothing s (exec i s) := by
  cases i with
  | wrIcs v => exact absurd rfl (notIcs v)
  | rdIcr => exact readRule_latchesNothing s .icr
  | wrIcr v =>
    rintro _ ⟨⟩ k
    exact getLsbD_of_clearCauses
  | wrEerd v => exact .ite (.next rfl) (.ite (.next rfl) (.next rfl))
  | wrTctl v | wrRctl v => exact .ite (.next (enableChecks_icr ..)) (.next rfl)
  | wrTdbal v | wrTdbah v | wrTdlen v | wrRdbal v | wrRdbah v | wrRdlen v | wrTdt v | wrRdt v | txdExt d =>
    exact .ite (.next rfl) (.next rfl)
  | wrTdh v | wrRdh v => exact .ite (.next rfl) (.ite (.next rfl) (.next rfl))
  | txd d => exact execTxd_latchesNothing s d
  | rxd d => exact execRxd_latchesNothing s d
  | ld n a =>
    rw [exec_ld]
    exact hostReads_latchesNothing s _ a _ fun _ => rfl
  | st n a v => exact hostWrites_latchesNothing s _ a _
  | copy a bytes => exact hostWrites_latchesNothing s _ a _
  | setBits o m =>
    rw [exec_setBits]
    exact readThenWrite_latchesNothing s o _
  | clearBits o m =>
    rw [exec_clearBits]
    exact readThenWrite_latchesNothing s o _
  | writeField o m sh v => exact .ite (.next rfl) (readThenWrite_latchesNothing s o _)
  | _ => exact .next rfl

/-! ### Codes -/

/-- Every code but a write of ICS latches nothing. -/
theorem runCode_latchesNothing {c : Code} (notIcs : ∀ v, c ≠ .access (Access.wr Reg.ics.offset v)) :
    LatchesNothing s (runCode c s) := by
  rcases runCode_cases c s with ⟨i, decodes, h⟩ | ⟨e, -, h⟩ <;> rw [h]
  · refine exec_latchesNothing s fun v ics => notIcs v (eq_wr_ics_of_decode ?_)
    rw [decodes, ics]
  · exact .next (rejectAccess_icr s e)

theorem runThen_latchesNothing {c : Code} (notIcs : ∀ v, c ≠ .access (Access.wr Reg.ics.offset v))
    (after : List HostCmd) : LatchesNothing s (runThen c after s) :=
  runCode_latchesNothing (s.pushCode after) notIcs

theorem runThen_rdReg_latchesNothing (reg : Reg) (after : List HostCmd) :
    LatchesNothing s (runThen (rdReg reg) after s) :=
  runThen_latchesNothing s (by rintro v ⟨⟩) after

theorem runThen_hostOp_latchesNothing (o : HostOp) (after : List HostCmd) :
    LatchesNothing s (runThen (.hostOp o) after s) :=
  runThen_latchesNothing s (by rintro v ⟨⟩) after

/-! ### The device agents -/

theorem txEngineStep_latchesNothing : LatchesNothing s (txEngineStep s) := by
  refine .ite ?_ (.next rfl)
  split
  · exact .next rfl
  · exact runCode_latchesNothing s nofun

theorem rxEngineStep_latchesNothing : LatchesNothing s (rxEngineStep s) := by
  refine .ite (.ite (.next rfl) ?_) (.next rfl)
  split
  · exact .next rfl
  · exact runCode_latchesNothing s nofun

@[simp] theorem eepromStep_icr : (eepromStep s).icr = s.icr := by
  unfold eepromStep
  split
  · split <;> rfl
  · rfl

@[simp] theorem enqueue_icr (f : List Byte) : (enqueue f s).icr = s.icr := by
  unfold enqueue
  split <;> rfl

@[simp] theorem filtered_icr (f : List Byte) : (filtered f s).icr = s.icr := by
  unfold filtered
  split
  · rfl
  · exact enqueue_icr s f
  · rfl
  · split
    · exact enqueue_icr s.afterDraw f
    · rfl

@[simp] theorem rxArrive_icr (f : List Byte) (ok : Bool) : (rxArrive f ok s).icr = s.icr := by
  unfold rxArrive
  split
  · rfl
  split
  · rfl
  split
  · rfl
  split
  · rfl
  · exact filtered_icr s f

@[simp] theorem deliverStep_icr (spurious : Bool) : (deliverStep spurious s).icr = s.icr := by
  unfold deliverStep
  split <;> rfl

/-! ### The host's commands -/

@[simp] theorem constructRings_icr (plan : Driver) : (constructRings plan s).icr = s.icr := by
  rcases constructRings_cases plan s with ⟨-, -, h⟩ | ⟨-, h⟩ <;> rw [h]
  rfl

@[simp] theorem initialise_icr (mapped : Bool) : (initialise mapped s).icr = s.icr := by
  cases mapped <;> rfl

@[simp] theorem callDuty_icr (d : Duty) : (callDuty d s).icr = s.icr := by
  cases d with
  | constructRings plan => exact constructRings_icr s plan
  | initialise mapped => exact initialise_icr s mapped
  | _ => rfl

@[simp] theorem stationWords_icr (ws : List Half) : (stationWords ws s).icr = s.icr := by
  unfold stationWords
  split
  · dsimp only
    split <;> rfl
  · rfl

@[simp] theorem programFilter_icr : (programFilter s).icr = s.icr := by
  unfold programFilter
  split <;> rfl

@[simp] theorem blockingStart_icr (c : Consumer) : (blockingStart c s).icr = s.icr := by
  unfold blockingStart
  split
  · rfl
  · split <;> rfl

@[simp] theorem registerConsumer_icr (c : Consumer) : (registerConsumer c s).icr = s.icr := by
  unfold registerConsumer
  split <;> rfl

@[simp] theorem bridgeCheck_icr : (bridgeCheck s).icr = s.icr := by
  unfold bridgeCheck
  split <;> rfl

@[simp] theorem bridgeComplete_icr : (bridgeComplete s).icr = s.icr := by
  unfold bridgeComplete
  split <;> rfl

/-- A poll of EERD reads it or gives up (R370). -/
theorem poll_latchesNothing (n : Nat) : LatchesNothing s (poll n s) := by
  cases n with
  | zero => exact .next rfl
  | succ k => exact runThen_rdReg_latchesNothing s .eerd _

/-- A host command latches nothing, unless it is a write of ICS. -/
theorem runCmd_latchesNothing {c : HostCmd} (notIcs : ∀ v, c ≠ .access (Access.wr Reg.ics.offset v)) :
    LatchesNothing s (runCmd c s) := by
  cases c with
  | access a => exact runCode_latchesNothing s fun v h => notIcs v (congrArg HostCmd.access (Code.access.inj h))
  | op o => exact runCode_latchesNothing (c := .hostOp o) s (by rintro v ⟨⟩)
  | isEmpty | bridge => exact runThen_rdReg_latchesNothing s _ _
  | txSlot _ | emptySlot => exact runThen_hostOp_latchesNothing s _ _
  | rxSlot => exact runThen_hostOp_latchesNothing s (.ld .one _) [.rxLength _]
  | readWord _ => exact runThen_latchesNothing s (by rintro v ⟨⟩) _
  | transmit _ | receive _ => exact .ite (.next rfl) (runThen_rdReg_latchesNothing s _ _)
  | txNext _ _ | txQueue _ _ | rxLength _ => exact .ite (runThen_hostOp_latchesNothing s _ _) (.next rfl)
  | rxData i => exact .ite (.next rfl) (.ite (.next rfl) (.next rfl))
  | pollEerd n => exact poll_latchesNothing s n
  | pollCheck n => exact .ite (.next rfl) (poll_latchesNothing s n)
  | call d => exact .next (callDuty_icr s d)
  | stationWords ws => exact .next (stationWords_icr s ws)
  | programFilter => exact .next (programFilter_icr s)
  | blockingReceive c => exact .next (blockingStart_icr s c)
  | register c => exact .next (registerConsumer_icr s c)
  | bridgeCheck => exact .next (bridgeCheck_icr s)
  | bridgeComplete => exact .next (bridgeComplete_icr s)
  | setIe _ | unmaskIrq | ret _ | emptyAnswer => exact .next rfl

/-- The host's step latches nothing, unless its next command is a write of ICS. -/
theorem hostStep_latchesNothing
    (notIcs : ∀ v rest, s.code ≠ .access (Access.wr Reg.ics.offset v) :: rest) : LatchesNothing s (hostStep s) := by
  unfold hostStep
  split
  · refine .next ?_
    split <;> rfl
  next c rest code =>
    exact runCmd_latchesNothing { s with code := rest } fun v h => notIcs v rest (h ▸ code)

/-! ### Turns -/

/-- A turn of any agent but the host, the receive timer and the other-cause source latches nothing. -/
theorem runTurn_latchesNothing {τ : Turn} (notHost : τ ≠ .host) (notTimer : τ ≠ .rxTimer)
    (notOther : τ ≠ .otherCause) : LatchesNothing s (runTurn τ s) := by
  cases τ with
  | host => exact absurd rfl notHost
  | rxTimer => exact absurd rfl notTimer
  | otherCause => exact absurd rfl notOther
  | txEngine => exact txEngineStep_latchesNothing s
  | rxEngine => exact rxEngineStep_latchesNothing s
  | eeprom => exact .next (eepromStep_icr s)
  | wire f ok => exact .next (rxArrive_icr s f ok)
  | deliver => exact .next (deliverStep_icr s false)
  | spurious => exact .next (deliverStep_icr s true)
  | terminate => exact .next rfl

/-- A write of ICS at the head of the host's program sets its causes (R394). -/
theorem runTurn_host_wr_ics {v : Word} {rest : List HostCmd}
    (code : s.code = .access (Access.wr Reg.ics.offset v) :: rest) :
    runTurn .host s = .next { s with code := rest, icr := setCauses s.icr v } := by
  rw [runTurn_host_of_code code]
  exact runCode_of_access_ok (decodeAccess_wr .ics v) _

/-- The receive timer's turn, when it is not armed, changes nothing. -/
theorem rxTimerStep_of_disarmed (disarmed : s.rxTimerArmed = false) : rxTimerStep s = s :=
  if_neg (by rw [State.timerCanStep, disarmed, Bool.false_and]; exact Bool.false_ne_true)

/-- The other-cause source leaves RXT0 as it is (R405, R406). -/
theorem otherCauseStep_rxt0 : (otherCauseStep s).icr.getLsbD 7 = s.icr.getLsbD 7 := by
  unfold otherCauseStep
  split
  · rfl
  · rw [latch, BitVec.getLsbD_or, otherCauses_rxt0, Bool.or_false]

end

end Sys2Proof.Machine
end

section
/-! PROOFS. The two sources of RXT0 (R406). -/

namespace Sys2Proof.Machine

/-- Settles O42: no turn but the host's and the receive timer's sets bit 7; the timer sets it only when armed, and the
host only by a write of ICS, whose value has the bit. -/
theorem rxt0HasTwoSources : Obligations.Rxt0HasTwoSources := by
  intro s t h clear isSet
  obtain ⟨-, h⟩ := step_next h
  have latched : ¬ LatchesNothing s.begin (runTurn s.turn s.begin) := fun nothing =>
    Bool.false_ne_true (clear.symm.trans (nothing t h 7 isSet))
  by_cases host : s.turn = .host
  · refine .inr ⟨host, ?_⟩
    rw [host] at h latched
    by_contra absent
    refine latched (hostStep_latchesNothing _ fun v rest code => absent ⟨v, rest, code, ?_⟩)
    obtain rfl := Host.Outcome.next.inj ((runTurn_host_wr_ics s.begin code).symm.trans h)
    exact getLsbD_of_setCauses clear isSet
  by_cases timer : s.turn = .rxTimer
  · refine .inl ⟨timer, ?_⟩
    rw [timer] at latched
    refine Bool.of_not_eq_false fun disarmed => latched (.next ?_)
    rw [rxTimerStep_of_disarmed s.begin disarmed]
  by_cases other : s.turn = .otherCause
  · rw [other] at h
    obtain rfl := Host.Outcome.next.inj h
    exact absurd (clear.symm.trans ((otherCauseStep_rxt0 s.begin).symm.trans isSet)) Bool.false_ne_true
  · exact absurd (runTurn_latchesNothing _ host timer other) latched

end Sys2Proof.Machine
end

section
/-! SUPPORT. Which codes decode to a given register's write (R140, R141). -/

namespace Sys2Proof

theorem encode_writeInstr (reg : Reg) (v : Word) : encode (reg.writeInstr v) = reg.writeCode v := by
  cases reg <;> rfl

theorem encode_readInstr (reg : Reg) : encode reg.readInstr = reg.readCode := by
  cases reg <;> rfl

/-- A code that decodes to a register's write is the 32-bit write access at the register's offset. -/
theorem eq_wr_of_decode {c : Code} {reg : Reg} {v : Word} (h : decode c = .ok (reg.writeInstr v)) :
    c = .access (Access.wr reg.offset v) := by
  have encoded := encode_writeInstr reg v
  cases c with
  | access a =>
    obtain ⟨width, reg', offset, i⟩ := decodeAccess_ok h
    obtain ⟨w, write, o, d⟩ := a
    obtain rfl : w = Config.regWidth := width
    obtain rfl : o = reg'.offset := offset
    rw [i] at encoded
    cases write with
    | false => cases (encode_readInstr reg').symm.trans encoded
    | true => exact (encode_writeInstr reg' d).symm.trans encoded
  | txDesc b =>
    rw [← Except.ok.inj h, decodeTxDesc] at encoded
    split at encoded <;> cases encoded
  | rxDesc b =>
    rw [← Except.ok.inj h] at encoded
    cases encoded
  | hostOp o =>
    rw [← Except.ok.inj h] at encoded
    cases o <;> cases encoded

end Sys2Proof
end

section
/-! SUPPORT. What a step that sets a mark leaves as it was (R604): each operation, instruction and agent's step, by the
branches of its definition, every one of which sets a mark alone or sets none. -/

namespace Sys2Proof.Machine

/-- `P` holds of the state the outcome `o` answers, if that state is marked. -/
def WhenMarked (P : State → Prop) (o : Out) : Prop := ∀ t, o = .next t → t.marked = true → P t

namespace WhenMarked

variable {P Q : State → Prop} {t : State} {a b : Out}

theorem next (h : P t) : WhenMarked P (.next t) := by
  rintro _ ⟨⟩ _
  exact h

theorem unmarked (h : t.Unmarked) : WhenMarked P (.next t) := by
  rintro _ ⟨⟩ marked
  exact absurd (h.symm.trans marked) Bool.false_ne_true

theorem ite {c : Prop} [Decidable c] (yes : WhenMarked P a) (no : WhenMarked P b) :
    WhenMarked P (if c then a else b) := by
  split
  · exact yes
  · exact no

theorem mono (h : WhenMarked P a) (imp : ∀ t, P t → Q t) : WhenMarked Q a :=
  fun t answer marked => imp t (h t answer marked)

end WhenMarked

/-- `t` is `s` but for the marks and the host's program position, which a host step moves on (R604, R630). -/
def OnlyMarksAndProgram (s t : State) : Prop := OnlyMarks { s with code := t.code } t

theorem OnlyMarks.withProgram {s t : State} {cs : List HostCmd} (h : OnlyMarks { s with code := cs } t) :
    OnlyMarksAndProgram s t := by
  have program : t.code = cs := congrArg State.code h
  rw [OnlyMarksAndProgram, program]
  exact h

/-- The state on which an instruction's faults and refusals are raised: that with the control value stored for a write of
TCTL or RCTL (R245, R305), and the state itself for any other. -/
def storesFirst (i : Instr) (s : State) : State :=
  match i with
  | .wrTctl v => { s with tctl := v }
  | .wrRctl v => { s with rctl := v }
  | _ => s

theorem storesFirst_cases (i : Instr) (s : State) :
    storesFirst i s = s ∨ (∃ v, i = .wrTctl v ∧ storesFirst i s = { s with tctl := v })
      ∨ (∃ v, i = .wrRctl v ∧ storesFirst i s = { s with rctl := v }) := by
  cases i with
  | wrTctl v => exact .inr (.inl ⟨v, rfl, rfl⟩)
  | wrRctl v => exact .inr (.inr ⟨v, rfl, rfl⟩)
  | _ => exact .inl rfl

@[simp] theorem storesFirst_readInstr (reg : Reg) (s : State) : storesFirst reg.readInstr s = s := by
  cases reg <;> rfl

@[simp] theorem storesFirst_instr (o : HostOp) (s : State) : storesFirst o.instr s = s := by
  cases o <;> rfl

@[simp] theorem storesFirst_decodeTxDesc (b : BitVec 128) (s : State) : storesFirst (decodeTxDesc b) s = s := by
  rw [decodeTxDesc]
  split <;> rfl

/-! ### The shared operations -/

theorem enableChecks_onlyMarks (v : RingView) (bal : Word) (hd tl ctl : Reg) (x ref : Word) (s : State) :
    OnlyMarks s (enableChecks v bal hd tl ctl x ref s) := by
  rcases enableChecks_cases v bal hd tl ctl x ref s with ⟨f, h⟩ | ⟨f, h⟩ | ⟨h, -⟩ <;> rw [h]
  · exact raise_onlyMarks f .host s
  · exact refuse_onlyMarks f .host s
  · rfl

section
variable {s : State} (unmarked : s.Unmarked)
include unmarked

theorem hostReads_whenMarked (al : Bool) (a : Addr) (n : Nat) {k : List Byte → State}
    (keeps : ∀ bytes, (k bytes).marked = s.marked) : WhenMarked (OnlyMarks s) (hostReads al a n s k) :=
  .ite (.next rfl) (.ite (.next rfl) (.unmarked ((keeps _).trans unmarked)))

theorem hostWrites_whenMarked (al : Bool) (a : Addr) (bytes : List Byte) :
    WhenMarked (OnlyMarks s) (hostWrites al a bytes s) :=
  .ite (.next rfl) (.ite (.next rfl) (.unmarked unmarked))

/-- A register read sets no mark. -/
theorem readRule_unmarked {reg : Reg} {u : State} (read : readRule reg s = .next u) : u.Unmarked := by
  rcases readRule_cases reg s with ⟨v, h⟩ | ⟨v, h⟩ | ⟨-, h⟩ <;> cases h.symm.trans read <;> exact unmarked

theorem readThenWrite_whenMarked (o : Nat) (upd : Word → Word) :
    WhenMarked (OnlyMarks s) (readThenWrite o upd s) := by
  intro t h marked
  rcases readThenWrite_cases h with ⟨e, -, rfl⟩ | ⟨reg, u, -, read, rfl⟩
  · exact (rejectAccess_marked_onlyMarks e s).2
  · exact absurd ((readRule_unmarked unmarked read).symm.trans marked) Bool.false_ne_true

/-! ### Instructions -/

theorem txTake_unmarked (d : TxDesc) : (txTake d s).Unmarked := by
  obtain ⟨acc, hist, h⟩ := txTake_frame s d
  rw [h]
  exact unmarked

theorem txWriteBack_unmarked (d : TxDesc) (da : Addr) : (txWriteBack d da s).Unmarked := by
  obtain ⟨mem, draws, h⟩ := txWriteBack_frame s d da
  rw [h]
  exact unmarked

theorem execTxd_whenMarked (d : TxDesc) : WhenMarked (OnlyMarks s) (execTxd d s) := by
  refine .ite (.unmarked unmarked) (.ite (.next rfl) (.ite (.next rfl) ?_))
  split
  · exact .next rfl
  · exact .unmarked (txWriteBack_unmarked (txTake_unmarked unmarked d) d _)

theorem execRxd_whenMarked (d : RxDesc) : WhenMarked (OnlyMarks s) (execRxd d s) := by
  refine .ite (.unmarked unmarked) (.ite (.next rfl) ?_)
  split
  · exact .next rfl
  · exact .unmarked unmarked

/-- An instruction that sets a mark changes nothing else, after the store of TCTL or RCTL (R604). -/
theorem exec_whenMarked (i : Instr) : WhenMarked (OnlyMarks (storesFirst i s)) (exec i s) := by
  cases i with
  | wrTctl v | wrRctl v => exact .ite (.next (enableChecks_onlyMarks ..)) (.unmarked unmarked)
  | wrStatus v => exact .next rfl
  | wrEerd v => exact .ite (.next rfl) (.ite (.unmarked unmarked) (.unmarked unmarked))
  | wrTdbal v | wrTdbah v | wrTdlen v | wrRdbal v | wrRdbah v | wrRdlen v | wrTdt v | wrRdt v =>
    exact .ite (.next rfl) (.unmarked unmarked)
  | wrTdh v | wrRdh v => exact .ite (.next rfl) (.ite (.next rfl) (.unmarked unmarked))
  | txd d => exact execTxd_whenMarked unmarked d
  | txdExt d => exact .ite (.unmarked unmarked) (.next rfl)
  | rxd d => exact execRxd_whenMarked unmarked d
  | ld n a =>
    rw [exec_ld]
    exact hostReads_whenMarked unmarked _ a _ fun _ => rfl
  | st n a v => exact hostWrites_whenMarked unmarked _ a _
  | copy a bytes => exact hostWrites_whenMarked unmarked _ a _
  | setBits o m =>
    rw [exec_setBits]
    exact readThenWrite_whenMarked unmarked o _
  | clearBits o m =>
    rw [exec_clearBits]
    exact readThenWrite_whenMarked unmarked o _
  | writeField o m sh v => exact .ite (.next rfl) (readThenWrite_whenMarked unmarked o _)
  | _ => exact .unmarked unmarked

/-! ### Codes -/

theorem runCode_whenMarked {c : Code} {i : Instr} (h : decode c = .ok i) :
    WhenMarked (OnlyMarks (storesFirst i s)) (runCode c s) := by
  rw [runCode, h]
  exact exec_whenMarked unmarked i

/-- One access of a duty, by an instruction that is no write of TCTL or RCTL. -/
theorem runThen_whenMarked {c : Code} {i : Instr} (h : decode c = .ok i) (plain : ∀ u, storesFirst i u = u)
    (after : List HostCmd) : WhenMarked (OnlyMarksAndProgram s) (runThen c after s) := by
  have run := runCode_whenMarked (s := s.pushCode after) unmarked h
  rw [plain] at run
  exact run.mono fun _ => OnlyMarks.withProgram

theorem runThen_rdReg_whenMarked (reg : Reg) (after : List HostCmd) :
    WhenMarked (OnlyMarksAndProgram s) (runThen (rdReg reg) after s) :=
  runThen_whenMarked (c := rdReg reg) unmarked (decodeAccess_rd reg) (storesFirst_readInstr reg) after

theorem runThen_hostOp_whenMarked (o : HostOp) (after : List HostCmd) :
    WhenMarked (OnlyMarksAndProgram s) (runThen (.hostOp o) after s) :=
  runThen_whenMarked unmarked rfl (storesFirst_instr o) after

/-! ### The device agents -/

theorem txEngineStep_whenMarked : WhenMarked (OnlyMarks s) (txEngineStep s) := by
  refine .ite ?_ (.unmarked unmarked)
  split
  · exact .next rfl
  · have run := runCode_whenMarked (c := .txDesc (descBits s (s.txRing.descAddr s.tdh.toNat))) unmarked rfl
    rwa [storesFirst_decodeTxDesc] at run

theorem rxEngineStep_whenMarked : WhenMarked (OnlyMarks s) (rxEngineStep s) := by
  refine .ite (.ite (.next rfl) ?_) (.unmarked unmarked)
  split
  · exact .next rfl
  · exact runCode_whenMarked (c := .rxDesc _) unmarked rfl

theorem rxTimerStep_unmarked : (rxTimerStep s).Unmarked := by
  unfold rxTimerStep
  split <;> exact unmarked

theorem eepromStep_unmarked : (eepromStep s).Unmarked := by
  unfold eepromStep
  split
  · split <;> exact unmarked
  · exact unmarked

theorem otherCauseStep_unmarked : (otherCauseStep s).Unmarked := by
  unfold otherCauseStep
  split <;> exact unmarked

theorem deliverStep_unmarked (spurious : Bool) : (deliverStep spurious s).Unmarked := by
  unfold deliverStep
  split <;> exact unmarked

theorem enqueue_unmarked (f : List Byte) : (enqueue f s).Unmarked := by
  unfold enqueue
  split <;> exact unmarked

/-- The filter sets a mark only on its AS field, before any change (R316). -/
theorem filtered_whenMarked (f : List Byte) : WhenMarked (OnlyMarks s) (.next (filtered f s)) := by
  unfold filtered
  split
  · exact .next rfl
  · exact .unmarked (enqueue_unmarked unmarked f)
  · exact .unmarked unmarked
  · split
    · exact .unmarked (enqueue_unmarked (s := s.afterDraw) unmarked f)
    · exact .unmarked unmarked

theorem rxArrive_whenMarked (f : List Byte) (ok : Bool) : WhenMarked (OnlyMarks s) (.next (rxArrive f ok s)) := by
  unfold rxArrive
  split
  · exact .unmarked unmarked
  split
  · exact .unmarked unmarked
  split
  · exact .unmarked unmarked
  split
  · exact .unmarked unmarked
  · exact filtered_whenMarked unmarked f

/-- A turn of any agent but the host that sets a mark changes nothing else (R604). -/
theorem runTurn_whenMarked {τ : Turn} (notHost : τ ≠ .host) : WhenMarked (OnlyMarks s) (runTurn τ s) := by
  cases τ with
  | host => exact absurd rfl notHost
  | txEngine => exact txEngineStep_whenMarked unmarked
  | rxEngine => exact rxEngineStep_whenMarked unmarked
  | rxTimer => exact .unmarked (rxTimerStep_unmarked unmarked)
  | eeprom => exact .unmarked (eepromStep_unmarked unmarked)
  | otherCause => exact .unmarked (otherCauseStep_unmarked unmarked)
  | wire f ok => exact rxArrive_whenMarked unmarked f ok
  | deliver => exact .unmarked (deliverStep_unmarked unmarked false)
  | spurious => exact .unmarked (deliverStep_unmarked unmarked true)
  | terminate => exact .unmarked unmarked

/-! ### The host's commands -/

theorem constructRings_unmarked (plan : Driver) : (constructRings plan s).Unmarked := by
  rcases constructRings_cases plan s with ⟨-, -, h⟩ | ⟨-, h⟩ <;> rw [h] <;> exact unmarked

theorem callDuty_unmarked (d : Duty) : (callDuty d s).Unmarked := by
  cases d with
  | constructRings plan => exact constructRings_unmarked unmarked plan
  | initialise mapped => cases mapped <;> exact unmarked
  | _ => exact unmarked

theorem stationWords_unmarked (ws : List Half) : (stationWords ws s).Unmarked := by
  unfold stationWords
  split
  · dsimp only
    split <;> exact unmarked
  · exact unmarked

theorem programFilter_unmarked : (programFilter s).Unmarked := by
  unfold programFilter
  split <;> exact unmarked

theorem blockingStart_unmarked (c : Consumer) : (blockingStart c s).Unmarked := by
  unfold blockingStart
  split
  · exact unmarked
  · split <;> exact unmarked

theorem registerConsumer_unmarked (c : Consumer) : (registerConsumer c s).Unmarked := by
  unfold registerConsumer
  split <;> exact unmarked

theorem bridgeCheck_unmarked : (bridgeCheck s).Unmarked := by
  unfold bridgeCheck
  split <;> exact unmarked

theorem bridgeComplete_unmarked : (bridgeComplete s).Unmarked := by
  unfold bridgeComplete
  split <;> exact unmarked

theorem poll_whenMarked (n : Nat) : WhenMarked (OnlyMarksAndProgram s) (poll n s) := by
  cases n with
  | zero => exact .unmarked unmarked
  | succ k => exact runThen_rdReg_whenMarked unmarked .eerd _

/-- A host command, but an access of the program's own, that sets a mark changes the program position at most: no duty's
command is itself a write of TCTL or RCTL (log 22). -/
theorem runCmd_whenMarked {c : HostCmd} (notAccess : ∀ a, c ≠ .access a) :
    WhenMarked (OnlyMarksAndProgram s) (runCmd c s) := by
  cases c with
  | access a => exact absurd rfl (notAccess a)
  | op o => exact runThen_hostOp_whenMarked unmarked o []
  | isEmpty | bridge => exact runThen_rdReg_whenMarked unmarked _ _
  | txSlot _ | rxSlot | emptySlot => exact runThen_hostOp_whenMarked unmarked (.ld .one _) _
  | readWord k =>
    exact runThen_whenMarked (c := Reg.eerd.writeCode _) unmarked (decodeAccess_wr .eerd _) (fun _ => rfl) _
  | transmit _ | receive _ => exact .ite (.unmarked unmarked) (runThen_rdReg_whenMarked unmarked _ _)
  | txNext _ _ | txQueue _ _ | rxLength _ =>
    exact .ite (runThen_hostOp_whenMarked unmarked _ _) (.unmarked unmarked)
  | rxData i => exact .ite (.next rfl) (.ite (.next rfl) (.unmarked unmarked))
  | pollEerd n => exact poll_whenMarked unmarked n
  | pollCheck n => exact .ite (.unmarked unmarked) (poll_whenMarked unmarked n)
  | call d => exact .unmarked (callDuty_unmarked unmarked d)
  | stationWords ws => exact .unmarked (stationWords_unmarked unmarked ws)
  | programFilter => exact .unmarked (programFilter_unmarked unmarked)
  | blockingReceive c => exact .unmarked (blockingStart_unmarked unmarked c)
  | register c => exact .unmarked (registerConsumer_unmarked unmarked c)
  | bridgeCheck => exact .unmarked (bridgeCheck_unmarked unmarked)
  | bridgeComplete => exact .unmarked (bridgeComplete_unmarked unmarked)
  | setIe _ | unmaskIrq | ret _ | emptyAnswer => exact .unmarked unmarked

/-- An access of the host's program that sets a mark: nothing else changes, unless it is the write of TCTL or RCTL, whose
store comes first (R245, R305). -/
theorem runCode_access_whenMarked (a : Access) :
    WhenMarked (fun t => OnlyMarks s t ∨ (∃ v, a = Access.wr Reg.tctl.offset v ∧ OnlyMarks { s with tctl := v } t)
      ∨ (∃ v, a = Access.wr Reg.rctl.offset v ∧ OnlyMarks { s with rctl := v } t)) (runCode (.access a) s) := by
  rcases runCode_cases (.access a) s with ⟨i, decodes, -⟩ | ⟨e, -, h⟩
  · refine (runCode_whenMarked unmarked decodes).mono fun t marks => ?_
    rcases storesFirst_cases i s with plain | ⟨v, rfl, -⟩ | ⟨v, rfl, -⟩
    · rw [plain] at marks
      exact .inl marks
    · exact .inr (.inl ⟨v, Code.access.inj (eq_wr_of_decode (reg := .tctl) decodes), marks⟩)
    · exact .inr (.inr ⟨v, Code.access.inj (eq_wr_of_decode (reg := .rctl) decodes), marks⟩)
  · rw [h]
    exact .next (.inl (rejectAccess_marked_onlyMarks e s).2)

/-- A host step that sets a mark changes the program position at most, but for the store of TCTL or RCTL. -/
theorem hostStep_whenMarked :
    WhenMarked (fun t => OnlyMarksAndProgram s t
      ∨ (∃ v rest, s.code = .access (Access.wr Reg.tctl.offset v) :: rest ∧ OnlyMarksAndProgram { s with tctl := v } t)
      ∨ (∃ v rest, s.code = .access (Access.wr Reg.rctl.offset v) :: rest
          ∧ OnlyMarksAndProgram { s with rctl := v } t)) (hostStep s) := by
  unfold hostStep
  split
  · refine .unmarked ?_
    split <;> exact unmarked
  next c rest code =>
    by_cases isAccess : ∃ a, c = .access a
    · obtain ⟨a, rfl⟩ := isAccess
      refine (runCode_access_whenMarked (s := { s with code := rest }) unmarked a).mono fun t => ?_
      rintro (marks | ⟨v, rfl, marks⟩ | ⟨v, rfl, marks⟩)
      · exact .inl (OnlyMarks.withProgram marks)
      · exact .inr (.inl ⟨v, rest, code, OnlyMarks.withProgram (s := { s with tctl := v }) marks⟩)
      · exact .inr (.inr ⟨v, rest, code, OnlyMarks.withProgram (s := { s with rctl := v }) marks⟩)
    · exact (runCmd_whenMarked (s := { s with code := rest }) unmarked fun a h => isAccess ⟨a, h⟩).mono
        fun t => .inl

end
end Sys2Proof.Machine
end

section
/-! PROOFS. Faults and refusals are precise (R604). -/

namespace Sys2Proof.Machine

/-- Settles O7: an instruction raises its marks on the state its own store leaves; a step does so on the state the turn
begins in, the host's with its program moved on. -/
theorem faultsArePrecise : Obligations.FaultsArePrecise := by
  refine ⟨fun i s t unmarked answer marked => ?_, fun s t answer marked => ?_⟩
  · have marks := exec_whenMarked unmarked i t answer marked
    rcases storesFirst_cases i s with plain | ⟨v, rfl, -⟩ | ⟨v, rfl, -⟩
    · rw [plain] at marks
      exact .inl marks
    · exact .inr (.inl ⟨v, rfl, marks⟩)
    · exact .inr (.inr ⟨v, rfl, marks⟩)
  · obtain ⟨unmarked, turn⟩ := step_next answer
    by_cases host : s.turn = .host
    · rw [host] at turn
      rcases hostStep_whenMarked (s := s.begin) unmarked t turn marked with
        marks | ⟨v, rest, code, marks⟩ | ⟨v, rest, code, marks⟩
      · exact .inl marks
      · exact .inr (.inl ⟨host, v, rest, code, marks⟩)
      · exact .inr (.inr ⟨host, v, rest, code, marks⟩)
    · exact .inl (OnlyMarks.withProgram (s := s.begin) (cs := s.code)
        (runTurn_whenMarked (s := s.begin) unmarked host t turn marked))

end Sys2Proof.Machine
end

section
/-! SUPPORT. Final states (R641), the line after a clear (R392, R399, R620), and interrupt delivery and return (R622, R623,
R632, R633). -/

namespace Sys2Proof.Machine

/-! ### Final states -/

section
variable {s : State} (unmarked : s.Unmarked)
include unmarked

/-- In an unmarked state the transmit engine is idle exactly when it is disabled or owns nothing (R255, R264). -/
theorem txCanStep_eq_false_iff : s.txCanStep = false ↔ s.tctl.getLsbD 1 = false ∨ s.tdh = s.tdt := by
  refine ⟨fun idle => ?_, txCanStep_eq_false⟩
  by_contra busy
  obtain ⟨on, differ⟩ := not_or.1 busy
  exact Bool.eq_false_iff.1 idle ((txCanStep_iff s).2 ⟨Bool.of_not_eq_false on, differ, unmarked⟩)

/-- In an unmarked state the receive engine is idle exactly when it has no frame, is disabled or owns nothing (R320,
R327). -/
theorem rxCanStep_eq_false_iff :
    s.rxCanStep = false ↔ s.rxFifo = [] ∨ s.rctl.getLsbD 1 = false ∨ s.rdh = s.rdt := by
  refine ⟨fun idle => ?_, fun h => rxCanStep_eq_false (h.elim (.inr ∘ .inr) (Or.imp_right .inl))⟩
  by_contra busy
  obtain ⟨queued, busy⟩ := not_or.1 busy
  obtain ⟨on, differ⟩ := not_or.1 busy
  exact Bool.eq_false_iff.1 idle ((rxCanStep_iff s).2 ⟨Bool.of_not_eq_false on, differ, queued, unmarked⟩)

end

/-- The conditions of a final state (R641), by the engines' guards. -/
theorem final_iff (s : State) :
    s.final = true ↔ s.Unmarked ∧ s.code = [] ∧ s.ctx = .thread ∧ s.blocked = none ∧ s.txCanStep = false
      ∧ s.rxCanStep = false ∧ s.rxTimerArmed = false ∧ s.eeBusy = false := by
  simp only [State.final, State.Unmarked, Bool.and_eq_true, Bool.not_eq_true', List.isEmpty_iff, beq_iff_eq,
    Option.isNone_iff_eq_none, and_assoc]

/-- In a final state neither the host nor an engine nor a unit has an enabled step (R641). -/
theorem not_enabled_of_final {s : State} (h : s.final = true) {τ : Turn}
    (agent : τ = .host ∨ τ = .txEngine ∨ τ = .rxEngine ∨ τ = .rxTimer ∨ τ = .eeprom) : enabled τ s = false := by
  obtain ⟨-, code, ctx, -, tx, rx, timer, eeprom⟩ := (final_iff s).1 h
  rcases agent with rfl | rfl | rfl | rfl | rfl
  · rw [enabled, code, ctx]; rfl
  · exact tx
  · exact rx
  · rw [enabled, State.timerCanStep, timer]; rfl
  · rw [enabled, State.eepromCanStep, eeprom]; rfl

/-! ### The line after a clear -/

theorem line_eq_false_iff (s : State) : s.line = false ↔ s.icr &&& s.mask = 0 := bne_eq_false_iff_eq

/-- With nothing latched the line is deasserted (R391, R620). -/
theorem line_of_icr_eq_zero {s : State} (h : s.icr = 0) : s.line = false := by
  rw [line_eq_false_iff, h]
  exact BitVec.zero_and

section
variable {s : State} {v : Word} (cleared : clearCauses (s.icr &&& s.mask) v = 0)
include cleared

/-- Clearing every enabled cause in ICR deasserts the line (R392, R620). -/
theorem line_of_icr_cleared : State.line { s with icr := clearCauses s.icr v } = false := by
  rw [line_eq_false_iff]
  calc clearCauses s.icr v &&& s.mask
    _ = s.icr &&& (~~~(v &&& causeMask) &&& s.mask) := BitVec.and_assoc ..
    _ = s.icr &&& (s.mask &&& ~~~(v &&& causeMask)) := by rw [BitVec.and_comm s.mask]
    _ = clearCauses (s.icr &&& s.mask) v := (BitVec.and_assoc ..).symm
    _ = 0 := cleared

/-- Masking every latched cause deasserts the line (R399, R620). -/
theorem line_of_mask_cleared : State.line { s with mask := clearCauses s.mask v } = false :=
  (line_eq_false_iff _).2 ((BitVec.and_assoc ..).symm.trans cleared)

end

/-! ### Delivery and return -/

theorem canDeliver_iff {s : State} (unmarked : s.Unmarked) (spurious : Bool) :
    s.canDeliver spurious = true ↔ s.ctx = .thread ∧ s.ie = true ∧ s.irqUnmasked = true ∧ s.line ≠ spurious := by
  rw [State.canDeliver, State.canInterrupt, unmarked]
  simp only [Bool.not_false, Bool.and_true, Bool.and_eq_true, beq_iff_eq, bne_iff_ne, and_assoc]

theorem deliverStep_of_canDeliver {s : State} {spurious : Bool} (h : s.canDeliver spurious = true) :
    deliverStep spurious s = interruptEntry s := if_pos h

theorem deliverStep_of_not_canDeliver {s : State} {spurious : Bool} (h : ¬ s.canDeliver spurious = true) :
    deliverStep spurious s = s := if_neg h

/-- In the interrupt context with nothing left to run the host returns (R633). -/
theorem runTurn_host_of_irq_done {s : State} (irq : s.ctx = .irq) (done : s.code = []) :
    runTurn .host s = .next (interruptReturn s) := by
  rw [runTurn, hostStep, done]
  exact congrArg Host.Outcome.next (if_pos irq)

/-! ### The bridge -/

/-- The bridge's first step: the drain, with its test put next (R391, R636). -/
theorem runTurn_bridge {s : State} {rest : List HostCmd} (code : s.code = .bridge :: rest) :
    runTurn .host s = .next { s with
      icr := 0, history := s.history ++ [.drain (s.icr &&& causeMask)], r := (s.icr &&& causeMask).setWidth 64,
      code := .bridgeCheck :: rest } := by
  rw [runTurn_host_of_code code]
  exact runThen_rdReg .icr _ _

/-- The bridge's test with no consumer registered: return (R636, R637). -/
theorem runTurn_bridgeCheck_of_no_consumer {s : State} {rest : List HostCmd} (code : s.code = .bridgeCheck :: rest)
    (free : s.blocked = none) :
    runTurn .host s = .next { s with ctx := .thread, code := s.saved, saved := [] } := by
  rw [runTurn_host_of_code code, runCmd, bridgeCheck, free]
  rfl

end Sys2Proof.Machine
end

section
/-! PROOFS. Final states (R641), the line (R620), interrupt entry and return (R632, R633), and the bridge without a consumer
(R637). -/

namespace Sys2Proof.Machine

/-- Settles O47: with no mark set the engines' guards are the conditions the rule names, and an agent with no enabled step
changes nothing. -/
theorem finalStateIsIdle : Obligations.FinalStateIsIdle := by
  refine ⟨fun s => ?_, fun s final τ agent =>
    runTurn_of_not_enabled ((final_iff s).1 final).1 (not_enabled_of_final final agent)⟩
  rw [final_iff, ← and_assoc (a := s.fault = none), ← unmarked_iff]
  refine and_congr_right fun unmarked => ?_
  rw [txCanStep_eq_false_iff unmarked, rxCanStep_eq_false_iff unmarked]

/-- Settles O40: each access leaves no cause both latched and enabled. -/
theorem lineIsALevel : Obligations.LineIsALevel := by
  refine ⟨fun s => line_eq_true_iff, fun s t h => ?_, fun s t v cleared h => ?_, fun s t v cleared h => ?_⟩ <;>
    obtain rfl := Host.Outcome.next.inj h
  · exact line_of_icr_eq_zero rfl
  · exact line_of_icr_cleared cleared
  · exact line_of_mask_cleared cleared

/-- Settles O50: the platform's turn is entry where it can deliver and nothing elsewhere, and return undoes entry. -/
theorem interruptEntryAndReturn : Obligations.InterruptEntryAndReturn := by
  intro s unmarked
  have delivers := canDeliver_iff unmarked
  refine ⟨fun thread ie on line => ?_, fun thread ie on line => ?_, fun blocked => ?_, fun line => ?_,
    fun thread saved => ?_, runTurn_host_of_irq_done⟩
  · exact congrArg Host.Outcome.next (deliverStep_of_canDeliver ((delivers false).2 ⟨thread, ie, on, by simp [line]⟩))
  · exact congrArg Host.Outcome.next (deliverStep_of_canDeliver ((delivers true).2 ⟨thread, ie, on, by simp [line]⟩))
  · have held (spurious : Bool) : ¬ s.canDeliver spurious = true := fun can => by
      obtain ⟨thread, ie, on, -⟩ := (delivers spurious).1 can
      simp [thread, ie, on] at blocked
    exact ⟨congrArg Host.Outcome.next (deliverStep_of_not_canDeliver (held false)),
      congrArg Host.Outcome.next (deliverStep_of_not_canDeliver (held true))⟩
  · refine congrArg Host.Outcome.next (deliverStep_of_not_canDeliver fun can => ?_)
    obtain ⟨-, -, -, asserted⟩ := (delivers false).1 can
    exact asserted line
  · change { s with ctx := .thread, saved := [] } = s
    rw [← thread, ← saved]

/-- Settles O51: the first step is the drain and the second the bridge's test, which returns. -/
theorem bridgeWithoutConsumerOnlyDrains : Obligations.BridgeWithoutConsumerOnlyDrains :=
  fun _ _ code free => ⟨_, _, runTurn_bridge code, runTurn_bridgeCheck_of_no_consumer rfl free, rfl⟩

end Sys2Proof.Machine
end

section
/-! SUPPORT. Encoding against decoding (R140, R141, R150, R160): which instructions a register access encodes, and the form a
descriptor's bits select. -/

namespace Sys2Proof

/-- A descriptor decodes to the form its DEXT selects, with all its fields (R154). -/
theorem decodeTxDesc_toBits (d : TxDesc) : decodeTxDesc d.toBits = if d.dext then .txdExt d else .txd d := by
  rw [decodeTxDesc, TxDesc.ofBits_toBits]

/-- No operand of a well-formed instruction is lost in its code. -/
theorem decode_encode {i : Instr} (wf : WellFormed i) : decode (encode i) = .ok i := by
  cases i with
  | txd d =>
    have legacy : d.dext = false := by simpa [WellFormed, wellFormed] using wf
    rw [encode, decode, decodeTxDesc_toBits, legacy]
    rfl
  | txdExt d =>
    have extended : d.dext = true := wf
    rw [encode, decode, decodeTxDesc_toBits, extended]
    rfl
  | rxd d => rw [encode, decode, decodeRxDesc, RxDesc.ofBits_toBits]
  | ld | st | copy | setBits | clearBits | writeField => rfl
  | rdStatus | rdEerd | rdIcr | rdIcs | rdIms | rdImc | rdRctl | rdTctl | rdTipg | rdRdbal | rdRdbah | rdRdlen | rdRdh
  | rdRdt | rdTdbal | rdTdbah | rdTdlen | rdTdh | rdTdt | rdRal0 | rdRah0 => exact decodeAccess_rd _
  | _ => exact decodeAccess_wr _ _

theorem wellFormed_of_encode_access {i : Instr} {a : Access} (h : encode i = .access a) : WellFormed i := by
  cases i with
  | txd | txdExt | rxd | ld | st | copy | setBits | clearBits | writeField => cases h
  | _ => rfl

/-- An instruction encoded as a register access is some register's read or write (R141). -/
theorem access_instr_cases {i : Instr} (h : ∃ a, encode i = .access a) :
    (∃ reg : Reg, i = reg.readInstr) ∨ ∃ (reg : Reg) (v : Word), i = reg.writeInstr v := by
  obtain ⟨a, code⟩ := h
  have decodes : decodeAccess a = .ok i := by
    have decoded := decode_encode (wellFormed_of_encode_access code)
    rwa [code] at decoded
  obtain ⟨-, reg, -, instr⟩ := decodeAccess_ok decodes
  split at instr
  · exact .inr ⟨reg, a.data, instr⟩
  · exact .inl ⟨reg, instr⟩

/-- A read access that carries no data is its register's read code. -/
theorem encode_of_decodeAccess {a : Access} {i : Instr} (h : decodeAccess a = .ok i)
    (plain : a.write = false → a.data = 0) : encode i = .access a := by
  obtain ⟨width, reg, offset, rfl⟩ := decodeAccess_ok h
  obtain ⟨w, write, o, data⟩ := a
  obtain rfl : w = Config.regWidth := width
  obtain rfl : o = reg.offset := offset
  cases write with
  | false =>
    obtain rfl : data = 0 := plain rfl
    exact encode_readInstr reg
  | true => exact encode_writeInstr reg data

theorem encode_decodeTxDesc (v : BitVec 128) : encode (decodeTxDesc v) = .txDesc v := by
  rw [decodeTxDesc]
  split <;> rw [encode, TxDesc.toBits_ofBits]

theorem encode_decodeRxDesc (v : BitVec 128) : encode (decodeRxDesc v) = .rxDesc v := by
  rw [decodeRxDesc, encode, RxDesc.toBits_ofBits]

theorem encode_hostOp_instr (o : HostOp) : encode o.instr = .hostOp o := by
  cases o <;> rfl

end Sys2Proof
end

section
/-! PROOFS. The encoder and the decoder (R140, R141, R150, R160). -/

namespace Sys2Proof

/-- Settles O1: a register's offset finds the register, and a descriptor's fields are its bits. -/
theorem decodeOfEncodeIsTheInstruction : Obligations.DecodeOfEncodeIsTheInstruction :=
  fun _ wf => decode_encode wf

/-- Settles O2: each kind of code is what the encoder gives for the instruction it decodes to. -/
theorem encodeOfDecodeIsTheCode : Obligations.EncodeOfDecodeIsTheCode := by
  intro c i decodes plain
  cases c with
  | access a => exact encode_of_decodeAccess decodes (plain a rfl)
  | txDesc v => exact Except.ok.inj decodes ▸ encode_decodeTxDesc v
  | rxDesc v => exact Except.ok.inj decodes ▸ encode_decodeRxDesc v
  | hostOp o => exact Except.ok.inj decodes ▸ encode_hostOp_instr o

/-- Settles O4: the decoder evaluated on each word. -/
theorem wordsDecodeToTheirInstructions : Obligations.WordsDecodeToTheirInstructions := by
  unfold Obligations.WordsDecodeToTheirInstructions
  decide

end Sys2Proof
end

section
/-! SUPPORT. What the host's step keeps: a predicate closed under the host's own moves, under a mark and under every
instruction is kept by whichever command the host runs (R106, R120, R630). -/

namespace Sys2Proof.Machine

/-- `P` holds of the state the outcome `o` answers. -/
def Answers (P : State → Prop) (o : Out) : Prop := ∀ t, o = .next t → P t

namespace Answers

variable {P : State → Prop} {t : State} {a b : Out}

theorem next (h : P t) : Answers P (.next t) := by
  rintro _ ⟨⟩
  exact h

theorem ite {c : Prop} [Decidable c] (yes : c → Answers P a) (no : ¬ c → Answers P b) :
    Answers P (if c then a else b) := by
  split
  next h => exact yes h
  next h => exact no h

end Answers

/-- `t` is `s` but for what the host alone moves: its program, its flags, its results, its consumer and the history. -/
def HostMoves (s t : State) : Prop :=
  t = { s with
    code := t.code, ie := t.ie, irqUnmasked := t.irqUnmasked, blocked := t.blocked, results := t.results
    history := t.history }

/-- `P` is closed under everything a host command is made of. -/
structure KeptByHost (P : State → Prop) : Prop where
  moves : ∀ {s t}, P s → HostMoves s t → P t
  returns : ∀ {s}, P s → P (interruptReturn s)
  rings : ∀ {s plan}, P s → paramsOk plan = true → wellPlaced s.memMap plan = true → P { s with drv := plan }
  raises : ∀ {s}, P s → s.Unmarked → ∀ f g, P (raise f g s)
  refuses : ∀ {s}, P s → s.Unmarked → ∀ f g, P (refuse f g s)
  executes : ∀ {s}, P s → s.Unmarked → ∀ i, Answers P (exec i s)

theorem hostReads_answers {P : State → Prop} {s : State} {al : Bool} {a : Addr} {n : Nat} {k : List Byte → State}
    (refused : ∀ f, P (refuse f .host s)) (raised : ∀ f, P (raise f .host s)) (reads : ∀ bytes, P (k bytes)) :
    Answers P (hostReads al a n s k) :=
  .ite (fun _ => .next (refused _)) fun _ => .ite (fun _ => .next (raised _)) fun _ => .next (reads _)

namespace KeptByHost

section
variable {P : State → Prop} (kept : KeptByHost P) {s : State} (holds : P s)
include kept holds

/-! ### Steps without an access -/

theorem pushCode (cs : List HostCmd) : P (s.pushCode cs) := kept.moves holds rfl

theorem critical (cs : List HostCmd) : P (critical cs s) := kept.moves holds rfl

theorem constructRings (plan : Driver) : P (constructRings plan s) := by
  rcases constructRings_cases plan s with ⟨params, placed, h⟩ | ⟨-, h⟩ <;> rw [h]
  · exact kept.critical (kept.rings holds params placed) _
  · exact holds

theorem callDuty (d : Duty) : P (callDuty d s) := by
  cases d with
  | constructRings plan => exact kept.constructRings holds plan
  | initialise mapped => cases mapped <;> exact kept.moves holds rfl
  | _ => exact kept.critical holds _

theorem stationWords (ws : List Half) : P (stationWords ws s) := by
  unfold Machine.stationWords
  split
  · dsimp only
    split <;> exact kept.moves holds rfl
  · exact kept.moves holds rfl

theorem programFilter : P (programFilter s) := by
  unfold Machine.programFilter
  split <;> exact kept.moves holds rfl

theorem blockingStart (c : Consumer) : P (blockingStart c s) := by
  unfold Machine.blockingStart
  split
  · exact kept.moves holds rfl
  · split <;> exact kept.moves holds rfl

theorem registerConsumer (c : Consumer) : P (registerConsumer c s) := by
  unfold Machine.registerConsumer
  split
  · exact kept.moves holds rfl
  · exact holds

theorem bridgeCheck : P (bridgeCheck s) := by
  unfold Machine.bridgeCheck
  split
  · exact kept.returns holds
  · exact kept.moves holds rfl

theorem bridgeComplete : P (bridgeComplete s) := by
  unfold Machine.bridgeComplete
  split
  · exact kept.returns (kept.moves holds rfl)
  · exact kept.returns holds
  · exact kept.returns (kept.moves holds rfl)

/-! ### Steps with an access -/

variable (unmarked : s.Unmarked)
include unmarked

theorem runCode (c : Code) : Answers P (runCode c s) := by
  rcases runCode_cases c s with ⟨i, -, h⟩ | ⟨e, -, h⟩ <;> rw [h]
  · exact kept.executes holds unmarked i
  · rcases rejectAccess_cases e s with ⟨f, h⟩ | ⟨f, h⟩ <;> rw [h]
    · exact .next (kept.raises holds unmarked f .host)
    · exact .next (kept.refuses holds unmarked f .host)

theorem runThen (c : Code) (after : List HostCmd) : Answers P (runThen c after s) :=
  kept.runCode (kept.pushCode holds after) unmarked c

theorem poll (n : Nat) : Answers P (poll n s) := by
  cases n with
  | zero => exact .next (kept.moves holds rfl)
  | succ k => exact kept.runThen holds unmarked _ _

theorem runCmd (c : HostCmd) : Answers P (runCmd c s) := by
  have moved {t : State} (h : HostMoves s t) : Answers P (.next t) := .next (kept.moves holds h)
  have runs (c : Code) (after : List HostCmd) := kept.runThen holds unmarked c after
  cases c with
  | access a => exact kept.runCode holds unmarked _
  | op o => exact kept.runCode holds unmarked (.hostOp o)
  | rxSlot => exact runs (.hostOp (.ld .one _)) [.rxLength _]
  | isEmpty | bridge | txSlot | emptySlot | readWord => exact runs _ _
  | transmit _ | receive _ => exact .ite (fun _ => moved rfl) fun _ => runs _ _
  | txNext _ _ | txQueue _ _ | rxLength _ => exact .ite (fun _ => runs _ _) fun _ => moved rfl
  | rxData i =>
    exact hostReads_answers (fun f => kept.refuses holds unmarked f .host) (fun f => kept.raises holds unmarked f .host)
      fun _ => kept.pushCode holds _
  | pollEerd n => exact kept.poll holds unmarked n
  | pollCheck n => exact .ite (fun _ => moved rfl) fun _ => kept.poll holds unmarked n
  | call d => exact .next (kept.callDuty holds d)
  | stationWords ws => exact .next (kept.stationWords holds ws)
  | programFilter => exact .next (kept.programFilter holds)
  | blockingReceive c => exact .next (kept.blockingStart holds c)
  | register c => exact .next (kept.registerConsumer holds c)
  | bridgeCheck => exact .next (kept.bridgeCheck holds)
  | bridgeComplete => exact .next (kept.bridgeComplete holds)
  | setIe _ | unmaskIrq | ret _ | emptyAnswer => exact moved rfl

/-- The host's step keeps the predicate. -/
theorem hostStep : Answers P (hostStep s) := by
  unfold Machine.hostStep
  split
  · refine .next ?_
    split
    · exact kept.returns holds
    · exact holds
  next c rest code => exact kept.runCmd (s := { s with code := rest }) (kept.moves holds rfl) unmarked c

end
end KeptByHost

end Sys2Proof.Machine
end

section
/-! SUPPORT. The invariant (R48, R54, R245, R305, R315, R360, R603, R632, R714) under each instruction and each agent's
step. -/

namespace Sys2Proof.Machine

open Sys2Proof.Stated

/-! ### Words of cause bits -/

section
variable {x y v : Word}

theorem causes_or (hx : x &&& ~~~causeMask = 0) (hy : y &&& ~~~causeMask = 0) : (x ||| y) &&& ~~~causeMask = 0 := by
  rw [BitVec.and_or_distrib_right, hx, hy]
  exact BitVec.or_zero

theorem causes_and (hx : x &&& ~~~causeMask = 0) : (x &&& y) &&& ~~~causeMask = 0 := by
  rw [BitVec.and_assoc, BitVec.and_comm y, ← BitVec.and_assoc, hx]
  exact BitVec.zero_and

theorem causes_masked : (v &&& causeMask) &&& ~~~causeMask = 0 := by
  rw [BitVec.and_comm v]
  exact causes_and (by decide)

theorem causes_other (drawn : Word) : otherCauses drawn &&& ~~~causeMask = 0 := by
  unfold otherCauses
  split
  · decide
  · rw [BitVec.and_comm drawn]
    exact causes_and (by decide)

end

/-! ### Well-programmed rings -/

section
variable {en : Bool} {v : RingView}

theorem ringGood_iff :
    ringGood en v = true ↔ (en = true → lenLegal v.len = true ∧ v.base.extractLsb' 0 4 = 0 ∧ v.head.toNat < v.size
      ∧ v.tail.toNat < v.size) := by
  cases en <;> simp [ringGood, and_assoc, -RingView.size_eq]

theorem ringGood_of_disabled (off : en = false) : ringGood en v = true := by
  rw [off]; rfl

/-- An admitted tail write leaves the ring well programmed (R244, R304). -/
theorem ringGood_withTail (good : ringGood en v = true) {x : Word} (ok : cursorBad v.len x = false) :
    ringGood en { v with tail := x.setWidth 16 } = true := by
  refine ringGood_iff.2 fun on => ?_
  obtain ⟨legal, base, head, -⟩ := ringGood_iff.1 good on
  rcases (cursorBad_eq_false_iff _ _).1 ok with ⟨isLegal, below⟩ | ⟨illegal, -⟩
  · exact ⟨legal, base, head, (setWidth_toNat_of_lt_size isLegal below).trans_lt below⟩
  · exact absurd ((lenLegal_iff _).1 legal) illegal

/-- A head that advances by one stays on the ring (R44). -/
theorem ringGood_advance (good : ringGood en v = true) (i : Nat) : ringGood en { v with head := v.next i } = true := by
  refine ringGood_iff.2 fun on => ?_
  obtain ⟨legal, base, -, tail⟩ := ringGood_iff.1 good on
  have isLegal := (lenLegal_iff _).1 legal
  exact ⟨legal, base, (RingView.next_toNat isLegal i).trans_lt (Nat.mod_lt _ (size_pos isLegal)), tail⟩

/-- A ring that passed the enable checks is well programmed (R245, R305). -/
theorem ringGood_of_checked {high low : Word} {len : Word} {head tail : Half} (legal : lenLegal len = true)
    (base : low.extractLsb' 0 4 = 0) (hd : head.toNat < ringSize len) (tl : tail.toNat < ringSize len) :
    ringGood en ⟨high ++ low, len, head, tail⟩ = true :=
  ringGood_iff.2 fun _ => ⟨legal, (BitVec.extractLsb'_append_eq_of_add_le (by decide)).trans base, hd, tl⟩

end

/-! ### Marks -/

/-- In a marked state nothing is asked of the control registers, so one that keeps the rest keeps the invariant. -/
theorem State.Inv.of_marked {s t : State} {x y : Word} (inv : s.Inv) (marks : OnlyMarks { s with tctl := x, rctl := y } t)
    (marked : t.marked = true) (one : t.fault = none ∨ t.refused = none) : t.Inv := by
  obtain ⟨f, r, rfl⟩ : ∃ f r, t = { s with tctl := x, rctl := y, fault := f, refused := r } := ⟨_, _, marks⟩
  have never (unmarked : State.Unmarked { s with tctl := x, rctl := y, fault := f, refused := r }) : False :=
    Bool.false_ne_true (unmarked.symm.trans marked)
  exact { inv with
    oneMark := one
    txRing := fun h => (never h).elim
    rxRing := fun h => (never h).elim
    txRefused := fun h => (never h).elim
    rxRefused := fun h => (never h).elim }

section
variable {s : State} (inv : s.Inv) (unmarked : s.Unmarked)
include inv unmarked

theorem raise_inv (f : Fault) (g : Agent) : (raise f g s).Inv :=
  inv.of_marked (raise_onlyMarks f g s) (raise_marked f g s) (.inr ((unmarked_iff s).1 unmarked).2)

theorem refuse_inv (f : Refusal) (g : Agent) : (refuse f g s).Inv :=
  inv.of_marked (refuse_onlyMarks f g s) (refuse_marked f g s) (.inl ((unmarked_iff s).1 unmarked).1)

/-! ### Register accesses -/

omit unmarked in
/-- A read leaves the invariant: the drain's cleared ICR has no bits at all. -/
theorem readRule_inv (reg : Reg) : Answers State.Inv (readRule reg s) := by
  rcases readRule_cases reg s with ⟨v, h⟩ | ⟨v, h⟩ | ⟨-, h⟩ <;> rw [h]
  · exact .next { inv with }
  · exact .next { inv with }
  · exact .next { inv with icr := BitVec.zero_and }

/-- What the enable checks leave of a write of TCTL (R245). -/
theorem wrTctl_inv (v : Word) : Answers State.Inv (exec (.wrTctl v) s) := by
  obtain ⟨noFault, noRefusal⟩ := (unmarked_iff s).1 unmarked
  refine .ite (fun _ => .next ?_) fun off => .next { inv with
    txRing := fun _ => ringGood_of_disabled (Bool.eq_false_iff.2 off)
    txRefused := fun _ on => absurd on off }
  rcases enableChecks_cases _ _ _ _ _ _ _ _ with ⟨f, h⟩ | ⟨f, h⟩ | ⟨h, legal, base, hd, tl, allowed⟩ <;> rw [h]
  · exact inv.of_marked (y := s.rctl) (raise_onlyMarks f .host _) (raise_marked f .host _) (.inr noRefusal)
  · exact inv.of_marked (y := s.rctl) (refuse_onlyMarks f .host _) (refuse_marked f .host _) (.inl noFault)
  · exact { inv with
      txRing := fun _ => ringGood_of_checked legal base hd tl
      txRefused := fun _ _ => allowed }

/-- What the enable checks leave of a write of RCTL (R305). -/
theorem wrRctl_inv (v : Word) : Answers State.Inv (exec (.wrRctl v) s) := by
  obtain ⟨noFault, noRefusal⟩ := (unmarked_iff s).1 unmarked
  refine .ite (fun _ => .next ?_) fun off => .next { inv with
    rxRing := fun _ => ringGood_of_disabled (Bool.eq_false_iff.2 off)
    rxRefused := fun _ on => absurd on off }
  rcases enableChecks_cases _ _ _ _ _ _ _ _ with ⟨f, h⟩ | ⟨f, h⟩ | ⟨h, legal, base, hd, tl, allowed⟩ <;> rw [h]
  · exact inv.of_marked (x := s.tctl) (raise_onlyMarks f .host _) (raise_marked f .host _) (.inr noRefusal)
  · exact inv.of_marked (x := s.tctl) (refuse_onlyMarks f .host _) (refuse_marked f .host _) (.inl noFault)
  · exact { inv with
      rxRing := fun _ => ringGood_of_checked legal base hd tl
      rxRefused := fun _ _ => allowed }

/-- A base, length or head write is F6 while the ring is enabled, and unconstrained by the invariant while it is not. -/
theorem unlessEnabled_inv {en : Bool} {reg : Reg} {write : Out} (disabled : en = false → Answers State.Inv write) :
    Answers State.Inv (unlessEnabled en reg s write) :=
  .ite (fun _ => .next (raise_inv inv unmarked _ _)) fun off => disabled (Bool.eq_false_iff.2 off)

theorem cursorWrite_inv {len : Word} {reg : Reg} {v : Word} {t : State} (good : cursorBad len v = false → t.Inv) :
    Answers State.Inv (cursorWrite len reg v s t) :=
  .ite (fun _ => .next (raise_inv inv unmarked _ _)) fun ok => .next (good (Bool.eq_false_iff.2 ok))

theorem wrEerd_inv (v : Word) : Answers State.Inv (exec (.wrEerd v) s) :=
  .ite (fun _ => .next (raise_inv inv unmarked _ _)) fun _ =>
    .ite (fun _ => .next { inv with eeprom := fun _ => rfl }) fun _ => .next { inv with }

theorem writeInstr_inv (reg : Reg) (v : Word) : Answers State.Inv (exec (reg.writeInstr v) s) := by
  cases reg with
  | status => exact .next (refuse_inv inv unmarked _ _)
  | eerd => exact wrEerd_inv inv unmarked v
  | icr => exact .next { inv with icr := causes_and inv.icr }
  | ics => exact .next { inv with icr := causes_or inv.icr causes_masked }
  | ims => exact .next { inv with mask := causes_or inv.mask causes_masked }
  | imc => exact .next { inv with mask := causes_and inv.mask }
  | tctl => exact wrTctl_inv inv unmarked v
  | rctl => exact wrRctl_inv inv unmarked v
  | tipg | ral0 | rah0 => exact .next { inv with }
  | tdbal | tdbah | tdlen =>
    exact unlessEnabled_inv inv unmarked fun off => .next { inv with txRing := fun _ => ringGood_of_disabled off }
  | rdbal | rdbah | rdlen =>
    exact unlessEnabled_inv inv unmarked fun off => .next { inv with rxRing := fun _ => ringGood_of_disabled off }
  | tdh =>
    exact unlessEnabled_inv inv unmarked fun off => cursorWrite_inv inv unmarked fun _ =>
      { inv with txRing := fun _ => ringGood_of_disabled off }
  | rdh =>
    exact unlessEnabled_inv inv unmarked fun off => cursorWrite_inv inv unmarked fun _ =>
      { inv with rxRing := fun _ => ringGood_of_disabled off }
  | tdt =>
    rw [Reg.writeInstr, exec_wrTdt]
    exact cursorWrite_inv inv unmarked fun ok =>
      { inv with txRing := fun h => ringGood_withTail (v := s.txRing) (inv.txRing h) ok }
  | rdt =>
    rw [Reg.writeInstr, exec_wrRdt]
    exact cursorWrite_inv inv unmarked fun ok =>
      { inv with rxRing := fun h => ringGood_withTail (v := s.rxRing) (inv.rxRing h) ok }

/-! ### Host operations -/

theorem hostWrites_inv (al : Bool) (a : Addr) (bytes : List Byte) : Answers State.Inv (hostWrites al a bytes s) :=
  .ite (fun _ => .next (refuse_inv inv unmarked _ _)) fun _ =>
    .ite (fun _ => .next (raise_inv inv unmarked _ _)) fun _ =>
      .next { inv with mem := memWf_writeBytes inv.mem a bytes }

theorem readThenWrite_inv (o : Nat) (upd : Word → Word) : Answers State.Inv (readThenWrite o upd s) := by
  intro t h
  rcases readThenWrite_cases h with ⟨e, -, rfl⟩ | ⟨reg, u, -, read, rfl⟩
  · rcases rejectAccess_cases e s with ⟨f, h⟩ | ⟨f, h⟩ <;> rw [h]
    · exact raise_inv inv unmarked f .host
    · exact refuse_inv inv unmarked f .host
  · exact { readRule_inv inv reg u read with }

/-! ### The engines' descriptors -/

/-- A transmit step advances the head of a good ring and writes at most a status byte (R256, R257). -/
theorem txd_inv (d : TxDesc) : Answers State.Inv (exec (.txd d) s) := by
  refine .ite (fun _ => .next inv) fun _ => .ite (fun _ => .next (refuse_inv inv unmarked _ _)) fun _ =>
    .ite (fun _ => .next (raise_inv inv unmarked _ _)) fun _ => ?_
  split
  · exact .next (raise_inv inv unmarked _ _)
  · obtain ⟨acc, hist, take⟩ := txTake_frame s d
    have advanced (h : s.Unmarked) := ringGood_advance (v := s.txRing) (inv.txRing h) s.tdh.toNat
    cases rs : d.cmd.getLsbD 3
    · rw [txWriteBack_of_not_rs _ rs, take]
      exact .next { inv with txRing := advanced }
    · rw [txWriteBack_of_rs _ rs, take]
      exact .next { inv with mem := memWf_writeBytes inv.mem _ _, txRing := advanced }

/-- A receive step takes a frame off the FIFO, advances the head and writes the frame and the write-back (R321, R325). -/
theorem rxd_inv (d : RxDesc) : Answers State.Inv (exec (.rxd d) s) := by
  refine .ite (fun _ => .next inv) fun _ => .ite (fun _ => .next (refuse_inv inv unmarked _ _)) fun _ => ?_
  split
  · exact .next (raise_inv inv unmarked _ _)
  · exact .next { inv with
      mem := memWf_writeBytes (memWf_writeBytes inv.mem _ _) _ _
      fifo := List.length_tail.trans_le ((Nat.sub_le _ _).trans inv.fifo)
      frames := fun f queued => inv.frames f (List.mem_of_mem_tail queued)
      rxRing := fun h => ringGood_advance (v := s.rxRing) (inv.rxRing h) s.rdh.toNat }

/-- Every instruction keeps the invariant. -/
theorem exec_inv (i : Instr) : Answers State.Inv (exec i s) := by
  by_cases access : ∃ a, encode i = .access a
  · rcases access_instr_cases access with ⟨reg, rfl⟩ | ⟨reg, v, rfl⟩
    · rw [exec_readInstr]
      exact readRule_inv inv reg
    · exact writeInstr_inv inv unmarked reg v
  cases i with
  | txd d => exact txd_inv inv unmarked d
  | txdExt d => exact .ite (fun _ => .next inv) fun _ => .next (refuse_inv inv unmarked _ _)
  | rxd d => exact rxd_inv inv unmarked d
  | ld n a =>
    rw [exec_ld]
    exact hostReads_answers (fun f => refuse_inv inv unmarked f .host) (fun f => raise_inv inv unmarked f .host)
      fun _ => { inv with }
  | st n a v => exact hostWrites_inv inv unmarked _ a _
  | copy a bytes => exact hostWrites_inv inv unmarked _ a _
  | setBits o m =>
    rw [exec_setBits]
    exact readThenWrite_inv inv unmarked o _
  | clearBits o m =>
    rw [exec_clearBits]
    exact readThenWrite_inv inv unmarked o _
  | writeField o m sh v =>
    exact .ite (fun _ => .next (refuse_inv inv unmarked _ _)) fun _ => readThenWrite_inv inv unmarked o _
  | _ => exact absurd ⟨_, rfl⟩ access

end

/-! ### The agents -/

/-- The invariant is closed under the host's moves; a return from the interrupt leaves no saved position, and a new plan is
one R8 and R714 allow. -/
theorem inv_keptByHost : KeptByHost State.Inv where
  moves := by
    intro s t inv moves
    obtain ⟨code, ie, on, blocked, results, history, rfl⟩ : ∃ code ie on blocked results history, t = { s with
        code := code, ie := ie, irqUnmasked := on, blocked := blocked, results := results, history := history } :=
      ⟨_, _, _, _, _, _, moves⟩
    exact { inv with }
  returns inv := { inv with saved := fun _ => rfl }
  rings inv params placed := { inv with params := params, placed := .inr placed }
  raises := raise_inv
  refuses := refuse_inv
  executes := exec_inv

section
variable {s : State} (inv : s.Inv) (unmarked : s.Unmarked)
include inv unmarked

theorem txEngineStep_inv : Answers State.Inv (txEngineStep s) := by
  refine .ite (fun _ => ?_) fun _ => .next inv
  split
  · exact .next (raise_inv inv unmarked _ _)
  · exact exec_inv inv unmarked (decodeTxDesc _)

theorem rxEngineStep_inv : Answers State.Inv (rxEngineStep s) := by
  refine .ite (fun _ => .ite (fun _ => .next (refuse_inv inv unmarked _ _)) fun _ => ?_) fun _ => .next inv
  split
  · exact .next (raise_inv inv unmarked _ _)
  · exact exec_inv inv unmarked (decodeRxDesc _)

omit unmarked in
theorem rxTimerStep_inv : (rxTimerStep s).Inv := by
  unfold rxTimerStep
  split
  · exact { inv with icr := causes_or inv.icr (by decide) }
  · exact inv

omit unmarked in
theorem eepromStep_inv : (eepromStep s).Inv := by
  unfold eepromStep
  split
  · split <;> exact { inv with eeprom := nofun }
  · exact inv

omit unmarked in
theorem otherCauseStep_inv : (otherCauseStep s).Inv := by
  unfold otherCauseStep
  split
  · exact inv
  · exact { inv with icr := causes_or inv.icr (causes_other _) }

omit unmarked in
theorem deliverStep_inv (spurious : Bool) : (deliverStep spurious s).Inv := by
  unfold deliverStep
  split
  · exact { inv with saved := nofun }
  · exact inv

omit unmarked in
/-- A frame of admitted length joins a FIFO that has room for it (R315, R317). -/
theorem enqueue_inv {f : List Byte} (long : Config.minFrame ≤ f.length) (short : f.length ≤ Config.maxFrame) :
    (enqueue f s).Inv := by
  unfold enqueue
  split
  · exact { inv with }
  next room =>
    refine { inv with fifo := ?_, frames := fun g queued => ?_ }
    · rw [List.length_append]
      exact Nat.lt_of_not_le room
    · rcases List.mem_append.1 queued with old | new
      · exact inv.frames g old
      · rw [List.mem_singleton.1 new]
        exact ⟨long, short⟩

theorem filtered_inv {f : List Byte} (long : Config.minFrame ≤ f.length) (short : f.length ≤ Config.maxFrame) :
    (filtered f s).Inv := by
  unfold filtered
  split
  · exact refuse_inv inv unmarked _ _
  · exact enqueue_inv inv long short
  · exact { inv with }
  · split
    · exact enqueue_inv (s := s.afterDraw) { inv with } long short
    · exact { inv with }

theorem rxArrive_inv (f : List Byte) (ok : Bool) : (rxArrive f ok s).Inv := by
  unfold rxArrive
  split
  · exact inv
  split
  · exact { inv with }
  split
  · exact { inv with }
  split
  · exact { inv with }
  next lengthOk =>
    simp only [Bool.or_eq_true, decide_eq_true_iff, not_or, Nat.not_lt, gt_iff_lt] at lengthOk
    exact filtered_inv inv unmarked lengthOk.1 lengthOk.2

/-- Every agent's turn keeps the invariant. -/
theorem runTurn_inv (τ : Turn) : Answers State.Inv (runTurn τ s) := by
  cases τ with
  | host => exact inv_keptByHost.hostStep inv unmarked
  | txEngine => exact txEngineStep_inv inv unmarked
  | rxEngine => exact rxEngineStep_inv inv unmarked
  | rxTimer => exact .next (rxTimerStep_inv inv)
  | eeprom => exact .next (eepromStep_inv inv)
  | otherCause => exact .next (otherCauseStep_inv inv)
  | wire f ok => exact .next (rxArrive_inv inv unmarked f ok)
  | deliver => exact .next (deliverStep_inv inv false)
  | spurious => exact .next (deliverStep_inv inv true)
  | terminate => exact .next { inv with }

end
end Sys2Proof.Machine
end

section
/-! PROOFS. The invariant holds after reset and every step keeps it. -/

namespace Sys2Proof.Machine

/-- Settles O8: a step is one agent's turn from an unmarked state, and every turn keeps each clause. -/
theorem stepKeepsInvariant : Obligations.StepKeepsInvariant := by
  intro s t inv answer
  obtain ⟨unmarked, turn⟩ := step_next answer
  exact runTurn_inv (s := s.begin) { inv with } unmarked s.turn t turn

/-- Settles O9: at reset nothing is enabled, queued, busy or saved, and the host's copies are the ones of reset. -/
theorem resetHasInvariant : Obligations.ResetHasInvariant where
  mem := reset_memWf
  icr := rfl
  mask := rfl
  oneMark := .inl rfl
  txRing _ := rfl
  rxRing _ := rfl
  txRefused _ := nofun
  rxRefused _ := nofun
  fifo := Nat.zero_le _
  frames := nofun
  eeprom := nofun
  saved _ := rfl
  params := rfl
  placed := .inl rfl

end Sys2Proof.Machine
end

section
/-! SUPPORT. The enable checks of TCTL and RCTL (R245, R305) past the length and the base: the cursors, the refused-if-set
bits, and the ring that passes. -/

namespace Sys2Proof.Machine

open Sys2Proof.Stated

section
variable {v : RingView} {bal : Word} (hd tl ctl : Reg) {x ref : Word} (s : State) (legal : Legal v.len)
  (aligned : bal.toNat % 16 = 0)
include legal aligned

/-- With a legal length and an aligned base the checks that remain are those of the cursors and the control bits. -/
theorem enableChecks_of_legal_aligned :
    enableChecks v bal hd tl ctl x ref s =
      if v.size ≤ v.head.toNat then raise (.cursorOutOfRange hd (v.head.setWidth 32)) .host s
      else if v.size ≤ v.tail.toNat then raise (.cursorOutOfRange tl (v.tail.setWidth 32)) .host s
      else if x &&& ref != 0 then refuse (.unmodelledControlField ctl x) .host s
      else s := by
  rw [enableChecks, (lenLegal_iff _).2 legal, Bool.not_true, if_neg Bool.false_ne_true, (baseAligned_iff bal).2 aligned]
  rfl

/-- F5 on the head comes before F5 on the tail. -/
theorem enableChecks_of_bad_head (head : Stated.size v.len ≤ v.head.toNat) :
    enableChecks v bal hd tl ctl x ref s = raise (.cursorOutOfRange hd (v.head.setWidth 32)) .host s := by
  rw [enableChecks_of_legal_aligned hd tl ctl s legal aligned, RingView.size_eq, if_pos head]

theorem enableChecks_of_bad_tail (head : v.head.toNat < Stated.size v.len) (tail : Stated.size v.len ≤ v.tail.toNat) :
    enableChecks v bal hd tl ctl x ref s = raise (.cursorOutOfRange tl (v.tail.setWidth 32)) .host s := by
  rw [enableChecks_of_legal_aligned hd tl ctl s legal aligned, RingView.size_eq, if_neg (Nat.not_le.2 head), if_pos tail]

end

section
variable {v : RingView} {bal : Word} (hd tl ctl : Reg) {x ref : Word} (s : State) (good : GoodRing v)
  (aligned : bal.toNat % 16 = 0)
include good aligned

theorem enableChecks_of_goodRing :
    enableChecks v bal hd tl ctl x ref s =
      if x &&& ref != 0 then refuse (.unmodelledControlField ctl x) .host s else s := by
  obtain ⟨legal, head, tail⟩ := good
  rw [enableChecks_of_legal_aligned hd tl ctl s legal aligned, RingView.size_eq, if_neg (Nat.not_le.2 head),
    if_neg (Nat.not_le.2 tail)]

/-- F13 comes last. -/
theorem enableChecks_of_refused_bit (bit : x &&& ref ≠ 0) :
    enableChecks v bal hd tl ctl x ref s = refuse (.unmodelledControlField ctl x) .host s := by
  rw [enableChecks_of_goodRing hd tl ctl s good aligned, if_pos (bne_iff_ne.2 bit)]

/-- A good, aligned ring and a value with no refused bit pass every check. -/
theorem enableChecks_of_admitted (clear : x &&& ref = 0) : enableChecks v bal hd tl ctl x ref s = s := by
  rw [enableChecks_of_goodRing hd tl ctl s good aligned, clear]
  rfl

end

theorem exec_wrTctl_of_not_en {v : Word} (off : v.getLsbD 1 = false) (s : State) :
    exec (.wrTctl v) s = .next { s with tctl := v } :=
  if_neg (Bool.eq_false_iff.1 off)

theorem exec_wrRctl_of_not_en {v : Word} (off : v.getLsbD 1 = false) (s : State) :
    exec (.wrRctl v) s = .next { s with rctl := v } :=
  if_neg (Bool.eq_false_iff.1 off)

end Sys2Proof.Machine
end

section
/-! PROOFS. The control registers (R245, R246, R305, R306) and the filter registers (R307, R308). -/

namespace Sys2Proof.Machine

open Sys2Proof.Stated

/-- Settles O16: with EN = 1 the write is the enable checks of the transmit ring, each clause deciding them in order. -/
theorem transmitControlAccess : Obligations.TransmitControlAccess := by
  refine ⟨Reg.keys .tctl, fun _ => rfl, fun s v => ⟨fun off => exec_wrTctl_of_not_en off s, fun on => ?_⟩⟩
  rw [exec_wrTctl_of_en on]
  refine ⟨fun illegal => ?_, fun legal misaligned => ?_, fun legal aligned head => ?_, fun legal aligned head tail => ?_,
    fun good aligned bit => ?_, fun good aligned clear => ?_⟩
  · exact congrArg Host.Outcome.next (enableChecks_of_illegal (v := s.txRing) _ _ _ _ _ _ _ illegal)
  · exact congrArg Host.Outcome.next (enableChecks_of_misaligned (v := s.txRing) _ _ _ _ _ _ _ legal misaligned)
  · exact congrArg Host.Outcome.next (enableChecks_of_bad_head (v := s.txRing) _ _ _ _ legal aligned head)
  · exact congrArg Host.Outcome.next (enableChecks_of_bad_tail (v := s.txRing) _ _ _ _ legal aligned head tail)
  · exact congrArg Host.Outcome.next (enableChecks_of_refused_bit _ _ _ _ good aligned bit)
  · exact congrArg Host.Outcome.next (enableChecks_of_admitted _ _ _ _ good aligned clear)

/-- Settles O17: with EN = 1 the write is the enable checks of the receive ring, each clause deciding them in order. -/
theorem receiveControlAccess : Obligations.ReceiveControlAccess := by
  refine ⟨Reg.keys .rctl, fun _ => rfl, fun s v => ⟨fun off => exec_wrRctl_of_not_en off s, fun on => ?_⟩⟩
  rw [exec_wrRctl_of_en on]
  refine ⟨fun illegal => ?_, fun legal misaligned => ?_, fun legal aligned head => ?_, fun legal aligned head tail => ?_,
    fun good aligned bit => ?_, fun good aligned clear => ?_⟩
  · exact congrArg Host.Outcome.next (enableChecks_of_illegal (v := s.rxRing) _ _ _ _ _ _ _ illegal)
  · exact congrArg Host.Outcome.next (enableChecks_of_misaligned (v := s.rxRing) _ _ _ _ _ _ _ legal misaligned)
  · exact congrArg Host.Outcome.next (enableChecks_of_bad_head (v := s.rxRing) _ _ _ _ legal aligned head)
  · exact congrArg Host.Outcome.next (enableChecks_of_bad_tail (v := s.rxRing) _ _ _ _ legal aligned head tail)
  · exact congrArg Host.Outcome.next (enableChecks_of_refused_bit _ _ _ _ good aligned bit)
  · exact congrArg Host.Outcome.next (enableChecks_of_admitted _ _ _ _ good aligned clear)

/-- Settles O18: the filter registers' rules have no guard. -/
theorem filterRegistersAccess : Obligations.FilterRegistersAccess :=
  ⟨Reg.keys .ral0, Reg.keys .rah0, fun _ _ => ⟨rfl, rfl, rfl, rfl⟩⟩

end Sys2Proof.Machine
end

section
/-! SUPPORT. Byte ranges (R110, R111, R116), host writes (R207, R208), and the regions the device owns (R115): an access
outside the owned descriptors leaves every owned buffer region where it was. -/

namespace Sys2Proof.Machine

open Sys2Proof.Stated

/-! ### Ranges -/

/-- The byte the range check finds is one of the range and does not exist (R111). -/
theorem firstMissing_eq_some {map : List (Nat × Nat)} {a x : Addr} {n : Nat} (h : firstMissing map a n = some x) :
    exists? map x.toNat = false ∧ ∃ k, k < n ∧ x = a + BitVec.ofNat 64 k := by
  induction n generalizing a with
  | zero => cases h
  | succ n ih =>
    rw [firstMissing] at h
    split at h
    · obtain ⟨missing, k, below, rfl⟩ := ih h
      exact ⟨missing, k + 1, Nat.succ_lt_succ below, addr_succ_add_ofNat a k⟩
    next missing =>
      obtain rfl := Option.some.inj h
      exact ⟨Bool.eq_false_iff.2 missing, 0, Nat.succ_pos n, (BitVec.add_zero a).symm⟩

theorem inMem_one_iff (s : State) (x : Addr) : InMem s x 1 ↔ exists? s.memMap x.toNat = true := by
  rw [← firstMissing_eq_none_iff, firstMissing]
  split
  next here => simp only [here, firstMissing]
  next missing => simp only [missing, reduceCtorEq]

/-- A part of a range lies inside it. -/
theorem inside_of_part {x a : Addr} {k n m : Nat} (h : Inside x (a + BitVec.ofNat 64 k) n) (fits : k + n ≤ m) :
    Inside x a m := by
  have split : x - a = x - (a + BitVec.ofNat 64 k) + BitVec.ofNat 64 k := by ring
  have wrapped : (x - a).toNat ≤ (x - (a + BitVec.ofNat 64 k)).toNat + k := by
    rw [split, BitVec.toNat_add, BitVec.toNat_ofNat]
    exact (Nat.mod_le _ _).trans (Nat.add_le_add_left (Nat.mod_le _ _) _)
  exact wrapped.trans_lt (by omega)

/-- Byte `k` of a range is inside it. -/
theorem inside_add_ofNat (a : Addr) {k n : Nat} (h : k < n) : Inside (a + BitVec.ofNat 64 k) a n := by
  rw [Inside, BitVec.add_comm, BitVec.add_sub_cancel, BitVec.toNat_ofNat]
  exact (Nat.mod_le _ _).trans_lt h

theorem inMem_of_part {s : State} {a : Addr} {k n m : Nat} (h : InMem s a m) (fits : k + n ≤ m) :
    InMem s (a + BitVec.ofNat 64 k) n := by
  intro j below
  rw [BitVec.add_assoc, ← BitVec.ofNat_add]
  exact h (k + j) (by omega)

/-- Two ranges meet exactly when they share a byte (R116). -/
theorem meets_iff (a : Addr) (n : Nat) (b : Addr) (m : Nat) :
    meets a n b m = true ↔ ∃ x, Inside x a n ∧ Inside x b m := by
  simp only [meets, Bool.and_eq_true, Bool.or_eq_true, decide_eq_true_iff]
  constructor
  · rintro ⟨⟨hn, hm⟩, inside | inside⟩
    · exact ⟨b, inside, by simpa using hm⟩
    · exact ⟨a, by simpa using hn, inside⟩
  · rintro ⟨x, hn, hm⟩
    refine ⟨⟨Nat.zero_lt_of_lt hn, Nat.zero_lt_of_lt hm⟩, ?_⟩
    rcases Nat.le_total (x - b).toNat (x - a).toNat with le | le
    · have gap : b - a = (x - a) - (x - b) := by ring
      left
      rw [gap, BitVec.toNat_sub_of_le le]
      exact (Nat.sub_le _ _).trans_lt hn
    · have gap : a - b = (x - b) - (x - a) := by ring
      right
      rw [gap, BitVec.toNat_sub_of_le le]
      exact (Nat.sub_le _ _).trans_lt hm

theorem anyBelow_iff (p : Nat → Bool) (n : Nat) : anyBelow p n = true ↔ ∃ k, k < n ∧ p k = true := by
  induction n with
  | zero => simp [anyBelow]
  | succ n ih =>
    rw [anyBelow, Bool.or_eq_true, ih, Nat.exists_lt_succ_right]
    exact or_comm

theorem anyBelow_congr {p q : Nat → Bool} {n : Nat} (h : ∀ k < n, p k = q k) : anyBelow p n = anyBelow q n := by
  rw [Bool.eq_iff_iff, anyBelow_iff, anyBelow_iff]
  exact exists_congr fun k => and_congr_right fun below => by rw [h k below]

/-! ### Host writes -/

/-- A store is a host write of N naturally aligned bytes, the low ones of the value (R100, R114). -/
theorem exec_st (n : Size) (a : Addr) (v : BitVec 64) (s : State) :
    exec (.st n a v) s = hostWrites (naturallyAligned n a) a (leBytes n.bytes v.toNat) s := rfl

theorem exec_copy (a : Addr) (bytes : List Byte) (s : State) : exec (.copy a bytes) s = hostWrites true a bytes s := rfl

theorem size_bytes_le (n : Size) : n.bytes ≤ 2 ^ 64 := by
  cases n <;> decide

section
variable {al : Bool} {a : Addr} {bytes : List Byte} {s : State}

theorem hostWrites_of_unmapped (h : ¬ (al = true ∧ InMem s a bytes.length)) :
    hostWrites al a bytes s = .next (refuse (.hostAccessUnmapped a) .host s) :=
  if_pos ((hostAccessUnmapped_iff al s a _).2 h)

section
variable (mapped : al = true ∧ InMem s a bytes.length)
include mapped

theorem hostWrites_of_mapped :
    hostWrites al a bytes s =
      if s.ownedDescMeets a bytes.length || s.ownedBufferMeets a bytes.length then
        .next (raise (.ownershipRace a) .host s)
      else .next { s with mem := writeBytes s.mem a bytes } :=
  if_neg (mt (hostAccessUnmapped_iff al s a _).1 (not_not_intro mapped))

theorem hostWrites_of_owned (owned : (s.ownedDescMeets a bytes.length || s.ownedBufferMeets a bytes.length) = true) :
    hostWrites al a bytes s = .next (raise (.ownershipRace a) .host s) :=
  (hostWrites_of_mapped mapped).trans (if_pos owned)

theorem hostWrites_of_free (free : (s.ownedDescMeets a bytes.length || s.ownedBufferMeets a bytes.length) = false) :
    hostWrites al a bytes s = .next { s with mem := writeBytes s.mem a bytes } :=
  (hostWrites_of_mapped mapped).trans (if_neg (Bool.eq_false_iff.1 free))

end

end

section
variable {n : Size} {a : Addr} {v : BitVec 64} {s : State}

theorem exec_st_of_unmapped (h : a.toNat % n.bytes ≠ 0 ∨ ¬ InMem s a n.bytes) :
    exec (.st n a v) s = .next (refuse (.hostAccessUnmapped a) .host s) := by
  rw [ne_eq, ← naturallyAligned_iff] at h
  exact hostWrites_of_unmapped (by rw [leBytes_length]; exact not_and_or.2 h)

section
variable (aligned : a.toNat % n.bytes = 0) (mapped : InMem s a n.bytes)
include aligned mapped

theorem exec_st_of_owned (owned : (s.ownedDescMeets a n.bytes || s.ownedBufferMeets a n.bytes) = true) :
    exec (.st n a v) s = .next (raise (.ownershipRace a) .host s) := by
  have passes := (naturallyAligned_iff n a).2 aligned
  exact hostWrites_of_owned ⟨passes, by rwa [leBytes_length]⟩ (by rwa [leBytes_length])

theorem exec_st_of_free (free : (s.ownedDescMeets a n.bytes || s.ownedBufferMeets a n.bytes) = false) :
    exec (.st n a v) s = .next { s with mem := writeBytes s.mem a (leBytes n.bytes v.toNat) } := by
  have passes := (naturallyAligned_iff n a).2 aligned
  exact hostWrites_of_free ⟨passes, by rwa [leBytes_length]⟩ (by rwa [leBytes_length])

end
end

/-- What a store wrote reads back as the low bytes of its value. -/
theorem leNat_readBytes_of_store (m : Memory) (n : Size) (a : Addr) (v : BitVec 64) :
    leNat (readBytes (writeBytes m a (leBytes n.bytes v.toNat)) a n.bytes) = v.toNat % 256 ^ n.bytes := by
  have back := readBytes_writeBytes m a (leBytes n.bytes v.toNat) (by rw [leBytes_length]; exact size_bytes_le n)
  rw [leBytes_length] at back
  rw [back, leNat_leBytes]

/-- A read apart from what was written reads what was there before. -/
theorem readBytes_of_write_apart {m : Memory} {a b : Addr} {bytes : List Byte} {n : Nat} (short : bytes.length ≤ 2 ^ 64)
    (apart : ∀ x, Inside x b n → ¬ Inside x a bytes.length) :
    readBytes (writeBytes m a bytes) b n = readBytes m b n :=
  readBytes_congr _ _ b n fun k below => by
    rw [memGet_writeBytes m a bytes short, if_neg (apart _ (inside_add_ofNat b below))]

/-! ### Owned regions -/

/-- Enumerating the owned indices of a ring, or of none, is ranging over what the device owns (R60). -/
theorem exists_ownedIndex_iff {v : RingView} (ring : RingOrNone v) (p : Nat → Prop) :
    (∃ k, k < v.ownedCount ∧ p (v.ownedIndex k)) ↔ ∃ i, Owns v i ∧ p i := by
  by_cases legal : Legal v.len
  · simp only [← ownedIndex_iff ⟨legal, ring legal⟩]
    constructor
    · rintro ⟨k, below, holds⟩
      exact ⟨_, ⟨k, below, rfl⟩, holds⟩
    · rintro ⟨_, ⟨k, below, rfl⟩, holds⟩
      exact ⟨k, below, holds⟩
  · have none : v.ownedCount = 0 := if_neg (mt (lenLegal_iff _).1 legal)
    rw [none]
    constructor
    · rintro ⟨k, below, -⟩
      exact absurd below (Nat.not_lt_zero k)
    · rintro ⟨i, owned, -⟩
      exact absurd owned.1 legal

theorem ownedDescMeets_iff (v : RingView) (a : Addr) (n : Nat) :
    v.ownedDescMeets a n = true ↔ ∃ k, k < v.ownedCount ∧ meets a n (v.descAddr (v.ownedIndex k)) 16 = true :=
  anyBelow_iff _ _

theorem ringBufferMeets_iff (ring : Ring) (s : State) (a : Addr) (n : Nat) :
    ringBufferMeets ring s a n = true ↔ ∃ k, k < (s.ring ring).ownedCount ∧
      meets a n (bufferRegion ring s ((s.ring ring).descAddr ((s.ring ring).ownedIndex k))).1
        (bufferRegion ring s ((s.ring ring).descAddr ((s.ring ring).ownedIndex k))).2 = true :=
  anyBelow_iff _ _

theorem descMapped_iff (s : State) (da : Addr) : descMapped s.memMap da = true ↔ InMem s da 16 := by
  rw [descMapped, Option.isNone_iff_eq_none, firstMissing_eq_none_iff]
  rfl

/-- No access meets an empty range. -/
theorem meets_empty (a : Addr) (n : Nat) (b : Addr) : meets a n b 0 = false := by
  rw [meets, decide_eq_false (lt_irrefl 0), Bool.and_false, Bool.false_and]

theorem empty_meets (a b : Addr) (m : Nat) : meets a 0 b m = false := by
  rw [meets, decide_eq_false (lt_irrefl 0), Bool.false_and, Bool.false_and]

/-- The buffer region of a transmit descriptor has the length the descriptor gives (R115). -/
theorem meets_bufferRegion_tx (s : State) (a : Addr) (n : Nat) (da : Addr) :
    meets a n (bufferRegion .tx s da).1 (bufferRegion .tx s da).2 = true ↔
      InMem s da 16 ∧ ∃ x, Inside x a n ∧ Inside x (BitVec.ofNat 64 (leNat (readBytes s.mem da 8)))
        (leNat (readBytes s.mem (da + 8) 2)) := by
  rw [bufferRegion, ← descMapped_iff]
  split
  next mapped => simp only [mapped, meets_iff, true_and]
  next unmapped => simp only [unmapped, meets_empty, Bool.false_eq_true, false_and]

/-- The buffer region of a receive descriptor has `RX_BUF_SIZE` bytes (R115). -/
theorem meets_bufferRegion_rx (s : State) (a : Addr) (n : Nat) (da : Addr) :
    meets a n (bufferRegion .rx s da).1 (bufferRegion .rx s da).2 = true ↔
      InMem s da 16 ∧ ∃ x, Inside x a n ∧ Inside x (BitVec.ofNat 64 (leNat (readBytes s.mem da 8))) 2048 := by
  rw [bufferRegion, ← descMapped_iff]
  split
  next mapped => simp only [mapped, meets_iff, true_and, Config.rxBufSize]
  next unmapped => simp only [unmapped, meets_empty, Bool.false_eq_true, false_and]

/-- A ring's owned descriptors, by what the device owns. -/
theorem ownedDescMeets_iff_owns {v : RingView} (ring : RingOrNone v) (a : Addr) (n : Nat) :
    v.ownedDescMeets a n = true ↔ ∃ x, Inside x a n ∧ ∃ i, Owns v i ∧ Inside x (v.descAddr i) 16 := by
  rw [ownedDescMeets_iff, exists_ownedIndex_iff ring fun i => meets a n (v.descAddr i) 16 = true]
  simp only [meets_iff]
  constructor
  · rintro ⟨i, owned, x, here, there⟩
    exact ⟨x, here, i, owned, there⟩
  · rintro ⟨x, here, i, owned, there⟩
    exact ⟨i, owned, x, here, there⟩

theorem ringBufferMeets_tx_iff_owns {s : State} (ring : RingOrNone s.txRing) (a : Addr) (n : Nat) :
    ringBufferMeets .tx s a n = true ↔ ∃ x, Inside x a n ∧ ∃ i, Owns s.txRing i ∧ InMem s (txDescAddr s i) 16
      ∧ Inside x (BitVec.ofNat 64 (leNat (readBytes s.mem (txDescAddr s i) 8)))
          (leNat (readBytes s.mem (txDescAddr s i + 8) 2)) := by
  rw [ringBufferMeets_iff, exists_ownedIndex_iff (v := s.ring .tx) ring fun i =>
    meets a n (bufferRegion .tx s ((s.ring .tx).descAddr i)).1 (bufferRegion .tx s ((s.ring .tx).descAddr i)).2 = true]
  simp only [meets_bufferRegion_tx]
  constructor
  · rintro ⟨i, owned, mapped, x, here, there⟩
    exact ⟨x, here, i, owned, mapped, there⟩
  · rintro ⟨x, here, i, owned, mapped, there⟩
    exact ⟨i, owned, mapped, x, here, there⟩

theorem ringBufferMeets_rx_iff_owns {s : State} (ring : RingOrNone s.rxRing) (a : Addr) (n : Nat) :
    ringBufferMeets .rx s a n = true ↔ ∃ x, Inside x a n ∧ ∃ i, Owns s.rxRing i ∧ InMem s (rxDescAddr s i) 16
      ∧ Inside x (BitVec.ofNat 64 (leNat (readBytes s.mem (rxDescAddr s i) 8))) 2048 := by
  rw [ringBufferMeets_iff, exists_ownedIndex_iff (v := s.ring .rx) ring fun i =>
    meets a n (bufferRegion .rx s ((s.ring .rx).descAddr i)).1 (bufferRegion .rx s ((s.ring .rx).descAddr i)).2 = true]
  simp only [meets_bufferRegion_rx]
  constructor
  · rintro ⟨i, owned, mapped, x, here, there⟩
    exact ⟨x, here, i, owned, mapped, there⟩
  · rintro ⟨x, here, i, owned, mapped, there⟩
    exact ⟨i, owned, mapped, x, here, there⟩

/-- An empty access meets nothing. -/
theorem empty_access_free (s : State) (a : Addr) : (s.ownedDescMeets a 0 || s.ownedBufferMeets a 0) = false := by
  have noDesc (v : RingView) : v.ownedDescMeets a 0 = false := by
    rw [Bool.eq_false_iff, ne_eq, ownedDescMeets_iff]
    simp only [empty_meets, Bool.false_eq_true, and_false, exists_false, not_false_eq_true]
  have noBuffer (ring : Ring) : ringBufferMeets ring s a 0 = false := by
    rw [Bool.eq_false_iff, ne_eq, ringBufferMeets_iff]
    simp only [empty_meets, Bool.false_eq_true, and_false, exists_false, not_false_eq_true]
  simp only [State.ownedDescMeets, State.ownedBufferMeets, noDesc, noBuffer, Bool.or_false]

/-! ### Writes outside the owned descriptors -/

section
variable {s : State} {a : Addr} {bytes : List Byte} (short : bytes.length ≤ 2 ^ 64)
include short

/-- A write apart from a descriptor leaves its buffer region. -/
theorem bufferRegion_of_write {ring : Ring} {da : Addr} (apart : meets a bytes.length da 16 = false) :
    bufferRegion ring { s with mem := writeBytes s.mem a bytes } da = bufferRegion ring s da := by
  have outside {x : Addr} (inDesc : Inside x da 16) : ¬ Inside x a bytes.length := fun written =>
    Bool.eq_false_iff.1 apart ((meets_iff _ _ _ _).2 ⟨x, written, inDesc⟩)
  have address := readBytes_of_write_apart (m := s.mem) (b := da) (n := 8) short fun x h =>
    outside (Nat.lt_of_lt_of_le h (by decide))
  have length := readBytes_of_write_apart (m := s.mem) (b := da + 8) (n := 2) short fun x h =>
    outside (inside_of_part (k := 8) h (by decide))
  cases ring <;> simp only [bufferRegion, address, length]

theorem ringBufferMeets_of_write {ring : Ring} (free : (s.ring ring).ownedDescMeets a bytes.length = false) (b : Addr)
    (n : Nat) : ringBufferMeets ring { s with mem := writeBytes s.mem a bytes } b n = ringBufferMeets ring s b n := by
  have same : State.ring { s with mem := writeBytes s.mem a bytes } ring = s.ring ring := by cases ring <;> rfl
  simp only [ringBufferMeets, same]
  refine anyBelow_congr fun k below => ?_
  rw [bufferRegion_of_write short (Bool.eq_false_iff.2 fun met => Bool.eq_false_iff.1 free
    ((ownedDescMeets_iff _ _ _).2 ⟨k, below, met⟩))]

/-- A write outside the owned descriptors changes no answer about the owned buffers. -/
theorem ownedBufferMeets_of_write (free : s.ownedDescMeets a bytes.length = false) (b : Addr) (n : Nat) :
    State.ownedBufferMeets { s with mem := writeBytes s.mem a bytes } b n = s.ownedBufferMeets b n := by
  obtain ⟨txFree, rxFree⟩ := Bool.or_eq_false_iff.1 free
  rw [State.ownedBufferMeets, ringBufferMeets_of_write (ring := .tx) short txFree,
    ringBufferMeets_of_write (ring := .rx) short rxFree]
  rfl

end

end Sys2Proof.Machine
end

section
/-! PROOFS. Missing bytes (R111), host stores and copies (R207, R208), and the owned regions (R115, R116). -/

namespace Sys2Proof.Machine

open Sys2Proof.Stated

/-- Settles O26: the search stops at the first byte that does not exist, and runs to the end when there is none. -/
theorem missingByteMeansNotInMem : Obligations.MissingByteMeansNotInMem := by
  refine ⟨firstMissing_eq_none_iff, fun s a x n found => ?_⟩
  obtain ⟨missing, place⟩ := firstMissing_eq_some found
  exact ⟨mt (inMem_one_iff s x).1 (Bool.eq_false_iff.1 missing), place⟩

/-- Settles O28: a store and a copy are one host write, whose checks each clause decides in order. -/
theorem hostStoreAndCopy : Obligations.HostStoreAndCopy := by
  refine ⟨fun n a v s => ?_, fun a bytes s short => ?_, fun a s => ?_⟩
  · refine ⟨fun stops => exec_st_of_unmapped stops, fun aligned mapped owned => exec_st_of_owned aligned mapped owned,
      fun aligned mapped free => ⟨_, exec_st_of_free aligned mapped free, rfl, leNat_readBytes_of_store s.mem n a v,
        fun x outside => ?_⟩⟩
    have byte := memGet_writeBytes s.mem a (leBytes n.bytes v.toNat)
    rw [leBytes_length] at byte
    exact (byte (size_bytes_le n) x).trans (if_neg outside)
  · rw [exec_copy]
    refine ⟨fun unmapped => ?_, fun mapped owned => ?_, fun mapped free => ?_⟩
    · exact hostWrites_of_unmapped fun h => unmapped h.2
    · exact hostWrites_of_owned ⟨rfl, mapped⟩ owned
    · exact ⟨_, hostWrites_of_free ⟨rfl, mapped⟩ free, rfl, readBytes_writeBytes s.mem a bytes short,
        fun x outside => (memGet_writeBytes s.mem a bytes short x).trans (if_neg outside)⟩
  · exact hostWrites_of_free (bytes := []) ⟨rfl, fun k below => absurd below (Nat.not_lt_zero k)⟩ (empty_access_free s a)

/-- Settles O29: the store that completed met no owned descriptor, so the owned buffers are where they were and the load
may read what was written. -/
theorem loadReturnsWhatWasStored : Obligations.LoadReturnsWhatWasStored := by
  intro n a v s t unmarked stored stays
  have never {t : State} (marked : t.marked = true) (stays : t.Unmarked) : False :=
    Bool.false_ne_true (stays.symm.trans marked)
  have length : (leBytes n.bytes v.toNat).length = n.bytes := leBytes_length _ _
  rw [exec_st] at stored
  rcases hostWrites_cases stored with rfl | rfl | ⟨rfl, aligned, mapped, noDesc, noBuffer⟩
  · exact (never (refuse_marked _ _ s) stays).elim
  · exact (never (raise_marked _ _ s) stays).elim
  · have short : (leBytes n.bytes v.toNat).length ≤ 2 ^ 64 := by
      rw [length]
      exact size_bytes_le n
    have free := ownedBufferMeets_of_write short noDesc a n.bytes
    rw [length] at mapped noBuffer
    have inMem := (firstMissing_eq_none_iff { s with mem := writeBytes s.mem a (leBytes n.bytes v.toNat) } a n.bytes).1 mapped
    rw [exec_ld, hostReads_of_free ⟨aligned, inMem⟩ (free.trans noBuffer)]
    exact congrArg (fun x => Host.Outcome.next (State.gets { s with mem := writeBytes s.mem a (leBytes n.bytes v.toNat) }
      (BitVec.ofNat 64 x))) (leNat_readBytes_of_store s.mem n a v)

/-- Settles O31: the model's enumeration of owned descriptors, and two ranges meeting, in the rule's own words. -/
theorem ownedRegions : Obligations.OwnedRegions := by
  intro s a n txRing rxRing
  constructor
  · rw [State.ownedDescMeets, Bool.or_eq_true, ownedDescMeets_iff_owns txRing, ownedDescMeets_iff_owns rxRing,
      ← exists_or]
    simp only [← and_or_left]
    rfl
  · rw [State.ownedBufferMeets, Bool.or_eq_true, ringBufferMeets_tx_iff_owns txRing,
      ringBufferMeets_rx_iff_owns rxRing, ← exists_or]
    simp only [← and_or_left]

end Sys2Proof.Machine
end

section
/-! SUPPORT. Where the engines' steps stop (R256, R261, R262, R321, R322), one equation per stop. -/

namespace Sys2Proof.Machine

open Sys2Proof.Stated

/-! ### Transmit -/

section
variable {s : State} (canStep : s.txCanStep = true)
include canStep

/-- F9 on the descriptor comes before it is decoded. -/
theorem txEngineStep_of_missing {a : Addr} (missing : firstMissing s.memMap (txDescAddr s s.tdh.toNat) 16 = some a) :
    txEngineStep s = .next (raise (.dmaUnmapped a .tx s.tdh.toNat) .txEngine s) := by
  change firstMissing s.memMap (s.txRing.descAddr s.tdh.toNat) Config.descSize = some a at missing
  simp only [txEngineStep, canStep, missing, if_true]

theorem exec_txdExt_of_canStep (d : TxDesc) :
    exec (.txdExt d) s = .next (refuse (.extendedDescriptor s.tdh.toNat) .txEngine s) :=
  if_neg (by rw [canStep]; exact Bool.false_ne_true)

theorem exec_txd_of_unmodelled {d : TxDesc}
    (bit : d.cmd.getLsbD 2 = true ∨ d.cmd.getLsbD 4 = true ∨ d.cmd.getLsbD 6 = true) :
    exec (.txd d) s = .next (refuse (.unmodelledDescriptorField s.tdh.toNat) .txEngine s) := by
  have unmodelled : cmdUnmodelled d.cmd = true := by
    rw [cmdUnmodelled, Bool.or_eq_true, Bool.or_eq_true, or_assoc]
    exact bit
  simp only [exec, execTxd, canStep, unmodelled, Bool.not_true, Bool.false_eq_true, if_false, if_true]

section
variable {d : TxDesc} (ic : d.cmd.getLsbD 2 = false) (bit4 : d.cmd.getLsbD 4 = false) (vle : d.cmd.getLsbD 6 = false)
include ic bit4 vle

/-- Past F17 the checks that remain are those of the length and the bytes. -/
theorem exec_txd_of_modelled :
    exec (.txd d) s =
      if d.length.toNat = 0 ∨ d.length.toNat > 16288 then .next (raise (.badTxLength s.tdh.toNat) .txEngine s)
      else match txMissing d (txDescAddr s s.tdh.toNat) s with
        | some a => .next (raise (.dmaUnmapped a .tx s.tdh.toNat) .txEngine s)
        | none => .next { txWriteBack d (txDescAddr s s.tdh.toNat) (txTake d s) with
            tdh := s.txRing.next s.tdh.toNat } := by
  have modelled : cmdUnmodelled d.cmd = false := by
    rw [cmdUnmodelled, cmdIc, cmdBit4, cmdVle, ic, bit4, vle]
    rfl
  simp only [exec, execTxd, canStep, modelled, Bool.not_true, Bool.false_eq_true, if_false, Bool.or_eq_true,
    decide_eq_true_iff]
  rfl

theorem exec_txd_of_bad_length (bad : d.length.toNat = 0 ∨ d.length.toNat > 16288) :
    exec (.txd d) s = .next (raise (.badTxLength s.tdh.toNat) .txEngine s) := by
  rw [exec_txd_of_modelled canStep ic bit4 vle, if_pos bad]

theorem exec_txd_of_buffer_missing {a : Addr} (nonempty : 0 < d.length.toNat) (short : d.length.toNat ≤ 16288)
    (missing : firstMissing s.memMap d.bufferAddr d.length.toNat = some a) :
    exec (.txd d) s = .next (raise (.dmaUnmapped a .tx s.tdh.toNat) .txEngine s) := by
  have first : txMissing d (txDescAddr s s.tdh.toNat) s = some a := by rw [txMissing, missing, Option.some_or]
  rw [exec_txd_of_modelled canStep ic bit4 vle, if_neg (by omega), first]

end
end

/-! ### Receive -/

section
variable {s : State} {f : List Byte} {q : List (List Byte)} (canStep : s.rxCanStep = true) (fifo : s.rxFifo = f :: q)
include canStep fifo

/-- F16 comes first, for the turn and for the form alike. -/
theorem rxEngineStep_of_long (long : rxBufferSize s.rctl < (storedBytes s.rctl f).length) :
    rxEngineStep s = .next (refuse (.rxFrameExceedsBuffer (storedBytes s.rctl f).length) .rxEngine s) := by
  simp only [rxEngineStep, canStep, fifo, List.headD_cons, long, if_true]

theorem exec_rxd_of_long (long : rxBufferSize s.rctl < (storedBytes s.rctl f).length) (d : RxDesc) :
    exec (.rxd d) s = .next (refuse (.rxFrameExceedsBuffer (storedBytes s.rctl f).length) .rxEngine s) := by
  simp only [exec, execRxd, canStep, fifo, List.headD_cons, long, Bool.not_true, Bool.false_eq_true, if_false, if_true]

variable (fits : (storedBytes s.rctl f).length ≤ rxBufferSize s.rctl)
include fits

/-- Then F9 on the descriptor's bytes 0 to 7. -/
theorem rxEngineStep_of_missing {a : Addr} (missing : firstMissing s.memMap (rxDescAddr s s.rdh.toNat) 8 = some a) :
    rxEngineStep s = .next (raise (.dmaUnmapped a .rx s.rdh.toNat) .rxEngine s) := by
  change firstMissing s.memMap (s.rxRing.descAddr s.rdh.toNat) 8 = some a at missing
  simp only [rxEngineStep, canStep, fifo, List.headD_cons, Nat.not_lt.2 fits, missing, if_true, if_false]

/-- Then F9 on the buffer, and on the write-back's bytes 8 to 15. -/
theorem exec_rxd_of_missing {d : RxDesc} {a : Addr}
    (missing : rxMissing d.bufferAddr (rxDescAddr s s.rdh.toNat) (storedBytes s.rctl f).length s = some a) :
    exec (.rxd d) s = .next (raise (.dmaUnmapped a .rx s.rdh.toNat) .rxEngine s) := by
  change rxMissing d.bufferAddr (s.rxRing.descAddr s.rdh.toNat) (storedBytes s.rctl f).length s = some a at missing
  simp only [exec, execRxd, canStep, fifo, List.headD_cons, Nat.not_lt.2 fits, missing, Bool.not_true, Bool.false_eq_true,
    if_false]

end

end Sys2Proof.Machine
end

section
/-! PROOFS. The stops of the engines' steps (R256, R261, R262, R321, R322, R606). -/

namespace Sys2Proof.Machine

open Sys2Proof.Stated

/-- Settles O33: each premise decides the step's check and the ones before it. -/
theorem transmitDescriptorStops : Obligations.TransmitDescriptorStops := fun _ canStep =>
  ⟨fun _ missing => txEngineStep_of_missing canStep missing, exec_txdExt_of_canStep canStep,
    fun _ bit => exec_txd_of_unmodelled canStep bit,
    fun _ ic bit4 vle bad => exec_txd_of_bad_length canStep ic bit4 vle bad,
    fun _ _ ic bit4 vle nonempty short missing =>
      exec_txd_of_buffer_missing canStep ic bit4 vle nonempty short missing⟩

/-- Settles O37: the length check is before the descriptor's, and of the bytes written the buffer's come first. -/
theorem receiveDescriptorStops : Obligations.ReceiveDescriptorStops := by
  intro s f q canStep fifo
  refine ⟨fun long => ⟨rxEngineStep_of_long canStep fifo long, exec_rxd_of_long canStep fifo long⟩,
    fun a fits missing => rxEngineStep_of_missing canStep fifo fits missing, fun d a fits missing => ?_,
    fun d a fits buffer missing => ?_⟩
  · exact exec_rxd_of_missing canStep fifo fits (by rw [rxMissing, missing, Option.some_or])
  · have present := (firstMissing_eq_none_iff _ _ _).2 buffer
    exact exec_rxd_of_missing canStep fifo fits (by rw [rxMissing, present, Option.none_or, missing])

end Sys2Proof.Machine
end

section
/-! SUPPORT. Frame arrival (R315 to R317): the destination address of a frame as its bytes, and each answer of the filter. -/

namespace Sys2Proof.Machine

/-! ### The destination address -/

theorem frameDst_toNat (f : List Byte) : (frameDst f).toNat = leNat (f.take 6) := by
  have below : leNat (f.take 6) < 2 ^ 48 :=
    (leNat_lt _).trans_le ((Nat.pow_le_pow_right (n := 256) (by decide) (List.length_take_le 6 f)).trans (by decide))
  rw [frameDst, BitVec.toNat_ofNat, Nat.mod_eq_of_lt below]

theorem frameDst_eq_iff (f : List Byte) (x : BitVec 48) : frameDst f = x ↔ leNat (f.take 6) = x.toNat := by
  rw [← BitVec.toNat_inj, frameDst_toNat]

section
variable {f : List Byte} (long : 64 ≤ f.length)
include long

/-- The broadcast address is six bytes 0xFF (R316). -/
theorem frameDst_eq_broadcast_iff : frameDst f = broadcastAddr ↔ f.take 6 = List.replicate 6 0xFF := by
  have six : (f.take 6).length = 6 := List.length_take_of_le (by omega)
  rw [frameDst_eq_iff]
  constructor
  · intro value
    rw [← leBytes_leNat (f.take 6), six, value]
    decide
  · intro bytes
    rw [bytes]
    decide

/-- The group bit is bit 0 of the first byte (R316). -/
theorem frameDst_group : (frameDst f).getLsbD 0 = ((f.take 6).getD 0 0).getLsbD 0 := by
  obtain ⟨b, rest, rfl⟩ := List.exists_cons_of_length_pos (Nat.lt_of_lt_of_le (by decide) long)
  change (frameDst (b :: rest)).toNat.testBit 0 = b.toNat.testBit 0
  rw [frameDst_toNat, List.take_succ_cons, leNat, Nat.testBit_zero, Nat.testBit_zero]
  congr 2
  omega

end

/-! ### The filter -/

section
variable {f : List Byte} {s : State}

theorem filter_of_as (av : rahAv s.rah0 = true) (as : rahAs s.rah0 ≠ 0) : filter f s = .refused :=
  if_pos (by rw [av, bne_iff_ne.2 as]; rfl)

theorem filter_of_match (av : rahAv s.rah0 = true) (as : rahAs s.rah0 = 0) (dst : frameDst f = s.filterAddr) :
    filter f s = .accept := by
  simp only [filter, av, as, dst, bne_self_eq_false, Bool.and_false, Bool.false_eq_true, if_false, beq_self_eq_true,
    Bool.and_true, if_true]

/-- Where the filter address has no say, the broadcast address decides, then the group bit. -/
theorem filter_of_other (other : rahAv s.rah0 = true → rahAs s.rah0 = 0 ∧ frameDst f ≠ s.filterAddr) :
    filter f s =
      if frameDst f = broadcastAddr then if rctlBam s.rctl then .accept else .drop
      else if (frameDst f).getLsbD 0 then .either else .drop := by
  have noRefusal : ¬ (rahAv s.rah0 && rahAs s.rah0 != 0) = true := fun h => by
    rw [Bool.and_eq_true, bne_iff_ne] at h
    exact h.2 (other h.1).1
  have noMatch : ¬ (rahAv s.rah0 && frameDst f == s.filterAddr) = true := fun h => by
    rw [Bool.and_eq_true, beq_iff_eq] at h
    exact (other h.1).2 h.2
  rw [filter, if_neg noRefusal, if_neg noMatch]
  simp only [beq_iff_eq]

/-! ### The checks before it -/

section
variable (unmarked : s.Unmarked)
include unmarked

theorem rxArrive_of_disabled (off : s.rctl.getLsbD 1 = false) (ok : Bool) :
    rxArrive f ok s = s.emit (.rxDrop f .disabled) := by
  rw [rxArrive, if_neg (Bool.eq_false_iff.1 unmarked), if_pos (by rw [rctlEn, off]; rfl)]

variable (on : s.rctl.getLsbD 1 = true)
include on

theorem rxArrive_of_enabled (ok : Bool) :
    rxArrive f ok s =
      if ok = false then s.emit (.rxDrop f .badFcs)
      else if f.length < 64 ∨ 1522 < f.length then s.emit (.rxDrop f .length)
      else filtered f s := by
  rw [rxArrive, if_neg (Bool.eq_false_iff.1 unmarked), if_neg (by rw [rctlEn, on]; exact Bool.false_ne_true)]
  simp only [Bool.not_eq_true', Bool.or_eq_true, decide_eq_true_iff]
  rfl

theorem rxArrive_of_badFcs : rxArrive f false s = s.emit (.rxDrop f .badFcs) := rxArrive_of_enabled unmarked on false

theorem rxArrive_of_bad_length (bad : f.length < 64 ∨ 1522 < f.length) :
    rxArrive f true s = s.emit (.rxDrop f .length) := by
  rw [rxArrive_of_enabled unmarked on, if_neg Bool.true_eq_false.mp, if_pos bad]

theorem rxArrive_of_reaches (long : 64 ≤ f.length) (short : f.length ≤ 1522) :
    rxArrive f true s = filtered f s := by
  rw [rxArrive_of_enabled unmarked on, if_neg Bool.true_eq_false.mp, if_neg (by omega)]

end

/-- Queueing a frame, by the room the FIFO has (R317). -/
theorem enqueue_eq (f : List Byte) (s : State) :
    enqueue f s = if s.rxFifo.length < Config.rxFifoFrames then { s with rxFifo := s.rxFifo ++ [f] }
      else s.emit (.rxDrop f .overrun) := by
  rw [enqueue, ← ite_not]
  simp only [Nat.not_le]

end

end Sys2Proof.Machine
end

section
/-! PROOFS. What becomes of an offered frame (R315, R316). -/

namespace Sys2Proof.Machine

/-- Settles O39: the arrival's checks in order, then the filter's answer, which the destination's bytes decide. -/
theorem frameArrival : Obligations.FrameArrival := by
  intro f ok s unmarked dropped queued reaches av ra dst
  have turn : runTurn (.wire f ok) s = .next (rxArrive f ok s) := rfl
  have arrives (h : reaches) : rxArrive f ok s = filtered f s ∧ 64 ≤ f.length := by
    obtain ⟨on, rfl, long, short⟩ := h
    exact ⟨rxArrive_of_reaches unmarked on long short, long⟩
  have other (h : av = true → s.rah0.extractLsb' 16 2 = 0 ∧ leNat dst ≠ ra.toNat) :=
    filter_of_other (f := f) (s := s) fun on => ⟨(h on).1, mt (frameDst_eq_iff f _).1 (h on).2⟩
  rw [turn]
  refine ⟨fun off => ?_, fun on bad => ?_, fun on good bad => ?_, fun reached valid as => ?_,
    fun reached valid as isRa => ?_, fun reached notRa bytes => ?_, fun reached notRa notBroadcast group => ?_,
    fun reached notRa notBroadcast single => ?_⟩
  · rw [rxArrive_of_disabled unmarked off]
    rfl
  · rw [bad, rxArrive_of_badFcs unmarked on]
    rfl
  · rw [good, rxArrive_of_bad_length unmarked on bad]
    rfl
  · rw [(arrives reached).1, filtered, filter_of_as valid as]
  · rw [(arrives reached).1, filtered, filter_of_match valid as ((frameDst_eq_iff f _).2 isRa)]
    exact congrArg Host.Outcome.next (enqueue_eq f s)
  · obtain ⟨arrived, long⟩ := arrives reached
    rw [arrived, filtered, other notRa, if_pos ((frameDst_eq_broadcast_iff long).2 bytes)]
    change Host.Outcome.next _ = .next (if rctlBam s.rctl = true then queued s else dropped .filtered s)
    cases rctlBam s.rctl
    · rfl
    · exact congrArg Host.Outcome.next (enqueue_eq f s)
  · obtain ⟨arrived, long⟩ := arrives reached
    rw [arrived, filtered, other notRa, if_neg (mt (frameDst_eq_broadcast_iff long).1 notBroadcast),
      if_pos ((frameDst_group long).trans group)]
    dsimp only
    split
    · exact .inl (congrArg Host.Outcome.next (enqueue_eq f s.afterDraw))
    · exact .inr rfl
  · obtain ⟨arrived, long⟩ := arrives reached
    rw [arrived, filtered, other notRa, if_neg (mt (frameDst_eq_broadcast_iff long).1 notBroadcast),
      if_neg (Bool.eq_false_iff.1 ((frameDst_group long).trans single))]
    rfl

end Sys2Proof.Machine
end

section
/-! SUPPORT. The units' steps (R330, R364, R405), the engines' step on a descriptor in `MEM` (R256, R321), and the fields of
EERD (R361). -/

namespace Sys2Proof.Machine

open Sys2Proof.Stated

/-! ### The units -/

section
variable {s : State} (unmarked : s.Unmarked)
include unmarked

theorem rxTimerStep_of_armed (armed : s.rxTimerArmed = true) :
    rxTimerStep s = { s with icr := s.icr ||| 0x80, rxTimerArmed := false } :=
  if_pos (by rw [State.timerCanStep, armed, unmarked]; rfl)

theorem eepromStep_of_busy (busy : s.eeBusy = true) :
    eepromStep s = if s.eerdAddr.toNat < 64 then
        { s with eerdData := Config.eeprom s.eerdAddr, eerdDone := true, eeBusy := false }
      else { s with eerdData := s.drawn 16, eerdDone := true, eeBusy := false, draws := s.draws + 1 } :=
  if_pos (by rw [State.eepromCanStep, busy, unmarked]; rfl)

omit unmarked in
theorem eepromStep_of_idle (idle : s.eeBusy = false) : eepromStep s = s :=
  if_neg (by rw [State.eepromCanStep, idle]; exact Bool.false_ne_true)

theorem otherCauseStep_of_unmarked :
    otherCauseStep s = { s with icr := s.icr ||| otherCauses (s.drawn 32), draws := s.draws + 1 } :=
  if_neg (Bool.eq_false_iff.1 unmarked)

end

/-- The causes drawn are some of `CAUSE_OTHER`, never none (R405). -/
theorem otherCauses_spec (drawn : Word) : otherCauses drawn ≠ 0 ∧ otherCauses drawn &&& ~~~causeOther = 0 := by
  unfold otherCauses
  split
  · decide
  next some =>
    refine ⟨some, ?_⟩
    rw [BitVec.and_assoc, show causeOther &&& ~~~causeOther = 0 by decide]
    exact BitVec.and_zero

/-! ### The engines -/

/-- With the descriptor at the head in `MEM` the transmit engine executes it (R256). -/
theorem txEngineStep_of_present {s : State} (canStep : s.txCanStep = true) (present : InMem s (txDescAddr s s.tdh.toNat) 16) :
    txEngineStep s = exec (decodeTxDesc (descBits s (txDescAddr s s.tdh.toNat))) s := by
  have found : firstMissing s.memMap (s.txRing.descAddr s.tdh.toNat) Config.descSize = none :=
    (firstMissing_eq_none_iff s _ _).2 present
  simp only [txEngineStep, canStep, found, if_true]
  rfl

/-- With a frame that fits and `buffer_addr` in `MEM` the receive engine executes its descriptor (R321). -/
theorem rxEngineStep_of_present {s : State} (canStep : s.rxCanStep = true) (present : InMem s (rxDescAddr s s.rdh.toNat) 8)
    (fits : (storedBytes s.rctl (s.rxFifo.headD [])).length ≤ rxBufferSize s.rctl) :
    rxEngineStep s = exec (decodeRxDesc (descBits s (rxDescAddr s s.rdh.toNat))) s := by
  have found : firstMissing s.memMap (s.rxRing.descAddr s.rdh.toNat) 8 = none :=
    (firstMissing_eq_none_iff s _ _).2 present
  simp only [rxEngineStep, canStep, found, Nat.not_lt.2 fits, if_true, if_false]
  rfl

/-! ### EERD -/

/-- The fields of a value read from EERD (R361). -/
theorem eerdValue_fields (data : Half) (addr : Byte) (done : Bool) (start : BitVec 1) :
    (eerdValue data addr done start).extractLsb' 16 16 = data ∧ (eerdValue data addr done start).extractLsb' 8 8 = addr
      ∧ (eerdValue data addr done start).getLsbD 4 = done := by
  refine ⟨?_, ?_, ?_⟩
  · rw [eerdValue]
    iterate 5 rw [extract_high _ _ (by decide)]
    exact BitVec.extractLsb'_eq_self
  · rw [eerdValue]
    iterate 4 rw [extract_high _ _ (by decide)]
    exact extract_low _ _
  · have field : (eerdValue data addr done start).extractLsb' 4 1 = BitVec.ofBool done := by
      rw [eerdValue]
      iterate 2 rw [extract_high _ _ (by decide)]
      exact extract_low _ _
    have bit := congrArg (·.getLsbD 0) field
    simpa using bit

/-- The value a START write of address `k` carries (R360). -/
theorem eerdStartValue_fields (k : Byte) :
    (k.setWidth 32 <<< 8 ||| 1 : Word).getLsbD 0 = true ∧ (k.setWidth 32 <<< 8 ||| 1 : Word).extractLsb' 8 8 = k := by
  refine ⟨by simp, ?_⟩
  ext i below
  simp [BitVec.getElem_extractLsb', below, show 8 + i < 32 by omega]

/-- The word last read is the word a register read returned. -/
@[simp] theorem getsWord_word (s : State) (v : Word) : (s.getsWord v).word = v := by
  rw [State.word, getsWord_r, BitVec.setWidth_setWidth (by decide), BitVec.setWidth_eq]

end Sys2Proof.Machine
end

section
/-! PROOFS. The units (R330, R364, R405), a whole EEPROM read (R360 to R364), the step that runs an instruction (R120) and
the marks that stop it (R603). -/

namespace Sys2Proof.Machine

open Sys2Proof.Stated

/-- Settles O41: each unit's step where it is enabled, and the state itself where it is not. -/
theorem unitSteps : Obligations.UnitSteps := by
  intro s unmarked
  have eeprom : runTurn .eeprom s = .next (eepromStep s) := rfl
  rw [eeprom]
  refine ⟨fun armed => ?_, fun disarmed => ?_, fun busy inside => ?_, fun busy outside => ⟨s.drawn 16, ?_⟩, fun idle => ?_,
    otherCauses (s.drawn 32), ?_⟩
  · exact congrArg Host.Outcome.next (rxTimerStep_of_armed unmarked armed)
  · exact congrArg Host.Outcome.next (rxTimerStep_of_disarmed s disarmed)
  · rw [eepromStep_of_busy unmarked busy, if_pos inside]
  · rw [eepromStep_of_busy unmarked busy, if_neg (Nat.not_lt.2 outside)]
  · rw [eepromStep_of_idle idle]
  · obtain ⟨some, other⟩ := otherCauses_spec (s.drawn 32)
    exact ⟨some, other, congrArg Host.Outcome.next (otherCauseStep_of_unmarked unmarked)⟩

/-- Settles O43: the START write leaves `k` in ADDR and the unit busy, its step puts the word in DATA, and the read returns
the fields. -/
theorem eepromReadReturnsTheWord : Obligations.EepromReadReturnsTheWord := by
  intro k s unmarked idle inside
  obtain ⟨start, addr⟩ := eerdStartValue_fields k
  have written := exec_wrEerd_of_start idle start
  rw [addr] at written
  have ends := (eepromStep_of_busy (s := { s with
    eerdAddr := k, eerdDone := false, eerdData := s.drawn 16, eeBusy := true, draws := s.draws + 1 }) unmarked rfl).trans
    (if_pos inside)
  refine ⟨_, _, _, written, congrArg Host.Outcome.next ends, rfl, ?_⟩
  rw [getsWord_word]
  obtain ⟨data, address, done⟩ := eerdValue_fields (Config.eeprom k) k true _
  exact ⟨data, done, address, rfl⟩

/-- Settles O5: the turn's agent fetches its instruction and executes it on the state the step begins in. -/
theorem stepRunsTheDecodedInstruction : Obligations.StepRunsTheDecodedInstruction := by
  intro s unmarked
  rw [step_of_unmarked unmarked]
  refine ⟨fun a rest i turn code decodes => ?_, fun o rest turn code => ?_, fun turn canStep present => ?_,
    fun turn canStep present fits => ?_⟩ <;> rw [turn]
  · rw [runTurn_host_of_code (s := s.begin) code]
    exact runCode_of_access_ok decodes _
  · exact runTurn_host_of_code (s := s.begin) code
  · exact txEngineStep_of_present (s := s.begin) canStep present
  · exact rxEngineStep_of_present (s := s.begin) canStep present fits

/-- Settles O6: a mark once set stays, and a step from a marked state answers the mark. -/
theorem markedStateIsQuiescent : Obligations.MarkedStateIsQuiescent := by
  have never {s : State} (marked : s.marked = true) (unmarked : s.Unmarked) : False :=
    Bool.false_ne_true (unmarked.symm.trans marked)
  refine ⟨fun s f g none => ?_, fun s f g m some => ?_, fun s f g none => ?_, fun s f g m some => ?_, fun s m faulted => ?_,
    fun s m none refused => ?_, fun s t marked answer => ?_, fun s marked => ?_, rfl, rfl⟩
  · rw [raise_fault, none, Option.none_or]
  · rw [raise_fault, some, Option.some_or]
  · rw [refuse_refused, none, Option.none_or]
  · rw [refuse_refused, some, Option.some_or]
  · simp only [step, State.stopped, faulted]
  · simp only [step, State.stopped, none, refused, Option.map_some]
  · exact never marked (step_next answer).1
  · exact Bool.eq_false_iff.2 fun final => never marked ((final_iff s).1 final).1

end Sys2Proof.Machine
end

section
/-! SUPPORT. The frames of the register accesses (R108, R200) and of the device agents' turns (R44, R731): each says which
fields of the state the step may move. -/

namespace Sys2Proof.Machine

/-! ### Register accesses -/

/-- What a write of `reg` may move: its own register and a mark; ICS's moves ICR, IMS's and IMC's the mask, and EERD's its
fields, the busy flag and a draw. -/
def WriteMoves (s t : State) : Reg → Prop
  | .status => t = { s with refused := t.refused }
  | .eerd => t = { s with
      eerdAddr := t.eerdAddr, eerdDone := t.eerdDone, eerdData := t.eerdData, eeBusy := t.eeBusy, draws := t.draws
      fault := t.fault }
  | .icr | .ics => t = { s with icr := t.icr }
  | .ims | .imc => t = { s with mask := t.mask }
  | .rctl => t = { s with rctl := t.rctl, fault := t.fault, refused := t.refused }
  | .tctl => t = { s with tctl := t.tctl, fault := t.fault, refused := t.refused }
  | .tipg => t = { s with tipg := t.tipg }
  | .rdbal => t = { s with rdbal := t.rdbal, fault := t.fault }
  | .rdbah => t = { s with rdbah := t.rdbah, fault := t.fault }
  | .rdlen => t = { s with rdlen := t.rdlen, fault := t.fault }
  | .rdh => t = { s with rdh := t.rdh, fault := t.fault }
  | .rdt => t = { s with rdt := t.rdt, fault := t.fault }
  | .tdbal => t = { s with tdbal := t.tdbal, fault := t.fault }
  | .tdbah => t = { s with tdbah := t.tdbah, fault := t.fault }
  | .tdlen => t = { s with tdlen := t.tdlen, fault := t.fault }
  | .tdh => t = { s with tdh := t.tdh, fault := t.fault }
  | .tdt => t = { s with tdt := t.tdt, fault := t.fault }
  | .ral0 => t = { s with ral0 := t.ral0 }
  | .rah0 => t = { s with rah0 := t.rah0 }

section
variable (s : State)

theorem enableChecks_marks (v : RingView) (bal : Word) (hd tl ctl : Reg) (x ref : Word) :
    ∃ f r, enableChecks v bal hd tl ctl x ref s = { s with fault := f, refused := r } :=
  ⟨_, _, enableChecks_onlyMarks v bal hd tl ctl x ref s⟩

theorem writeInstr_moves (reg : Reg) (v : Word) :
    Answers (fun t => WriteMoves s t reg) (exec (reg.writeInstr v) s) := by
  cases reg with
  | status | icr | ics | ims | imc | tipg | ral0 | rah0 => exact .next rfl
  | eerd => exact .ite (fun _ => .next rfl) fun _ => .ite (fun _ => .next rfl) fun _ => .next rfl
  | tctl | rctl =>
    refine .ite (fun _ => ?_) fun _ => .next rfl
    obtain ⟨f, r, h⟩ := enableChecks_marks _ _ _ _ _ _ _ _
    rw [h]
    exact .next rfl
  | tdbal | tdbah | tdlen | rdbal | rdbah | rdlen | tdt | rdt => exact .ite (fun _ => .next rfl) fun _ => .next rfl
  | tdh | rdh => exact .ite (fun _ => .next rfl) fun _ => .ite (fun _ => .next rfl) fun _ => .next rfl

/-- A read of any register but ICR moves the value read, and draws only where the value is drawn (R204, R361, R395,
R400). -/
theorem readInstr_draws {reg : Reg} {t : State} (h : exec reg.readInstr s = .next t) :
    t.draws = s.draws ∨ reg = .status ∨ reg = .ics ∨ reg = .imc ∨ reg = .eerd := by
  cases reg with
  | status | ics | imc | eerd => simp
  | _ =>
    obtain rfl := Host.Outcome.next.inj h
    exact .inl rfl

end

/-! ### Device agents -/

/-- What the transmit engine's step may move. The head advances by one, or stays where there is no step or the step sets a
mark. -/
def TxMoves (s t : State) : Prop :=
  t = { s with
    txAccum := t.txAccum, history := t.history, mem := t.mem, draws := t.draws, tdh := t.tdh, fault := t.fault
    refused := t.refused }
  ∧ (t.tdh = s.txRing.next s.tdh.toNat ∨ t.tdh = s.tdh ∧ (s.txCanStep = true → t.marked = true))

/-- What the receive engine's step may move; its head and its timer likewise. -/
def RxMoves (s t : State) : Prop :=
  t = { s with
    rxFifo := t.rxFifo, rxTimerArmed := t.rxTimerArmed, mem := t.mem, draws := t.draws, rdh := t.rdh, fault := t.fault
    refused := t.refused }
  ∧ (t.rdh = s.rxRing.next s.rdh.toNat ∨ t.rdh = s.rdh ∧ (s.rxCanStep = true → t.marked = true))
  ∧ (s.rxTimerArmed = true → t.rxTimerArmed = true)

/-- What the timer, the EEPROM unit, the other-cause source and the wire may move. -/
def UnitMoves (s t : State) : Prop :=
  t = { s with
    icr := t.icr, rxTimerArmed := t.rxTimerArmed, eerdData := t.eerdData, eerdDone := t.eerdDone, eeBusy := t.eeBusy
    rxFifo := t.rxFifo, history := t.history, draws := t.draws, refused := t.refused }

/-- What interrupt entry may move. -/
def PlatformMoves (s t : State) : Prop := t = { s with ctx := t.ctx, code := t.code, saved := t.saved }

section
variable (s : State)

/-- An engine's step that sets a mark, or none at all, leaves the head. -/
theorem txMoves_raise (f : Fault) : TxMoves s (raise f .txEngine s) :=
  ⟨rfl, .inr ⟨rfl, fun _ => raise_marked f .txEngine s⟩⟩

theorem txMoves_refuse (f : Refusal) : TxMoves s (refuse f .txEngine s) :=
  ⟨rfl, .inr ⟨rfl, fun _ => refuse_marked f .txEngine s⟩⟩

theorem txMoves_idle {s : State} (idle : ¬ s.txCanStep = true) : TxMoves s s :=
  ⟨rfl, .inr ⟨rfl, fun canStep => absurd canStep idle⟩⟩

theorem rxMoves_raise (f : Fault) : RxMoves s (raise f .rxEngine s) :=
  ⟨rfl, .inr ⟨rfl, fun _ => raise_marked f .rxEngine s⟩, id⟩

theorem rxMoves_refuse (f : Refusal) : RxMoves s (refuse f .rxEngine s) :=
  ⟨rfl, .inr ⟨rfl, fun _ => refuse_marked f .rxEngine s⟩, id⟩

theorem rxMoves_idle {s : State} (idle : ¬ s.rxCanStep = true) : RxMoves s s :=
  ⟨rfl, .inr ⟨rfl, fun canStep => absurd canStep idle⟩, id⟩

theorem exec_txd_moves (d : TxDesc) : Answers (TxMoves s) (exec (.txd d) s) := by
  refine .ite (fun idle => .next (txMoves_idle ?_)) fun _ => .ite (fun _ => .next (txMoves_refuse s _)) fun _ =>
    .ite (fun _ => .next (txMoves_raise s _)) fun _ => ?_
  · rw [Bool.not_eq_true'] at idle
    exact Bool.eq_false_iff.1 idle
  · split
    · exact .next (txMoves_raise s _)
    · obtain ⟨acc, hist, take⟩ := txTake_frame s d
      obtain ⟨mem, draws, back⟩ := txWriteBack_frame { s with txAccum := acc, history := hist } d
        (s.txRing.descAddr s.tdh.toNat)
      rw [take, back]
      exact .next ⟨rfl, .inl rfl⟩

theorem exec_txdExt_moves (d : TxDesc) : Answers (TxMoves s) (exec (.txdExt d) s) := by
  refine .ite (fun idle => .next (txMoves_idle ?_)) fun _ => .next (txMoves_refuse s _)
  rw [Bool.not_eq_true'] at idle
  exact Bool.eq_false_iff.1 idle

theorem exec_rxd_moves (d : RxDesc) : Answers (RxMoves s) (exec (.rxd d) s) := by
  refine .ite (fun idle => .next (rxMoves_idle ?_)) fun _ => .ite (fun _ => .next (rxMoves_refuse s _)) fun _ => ?_
  · rw [Bool.not_eq_true'] at idle
    exact Bool.eq_false_iff.1 idle
  · split
    · exact .next (rxMoves_raise s _)
    · exact .next ⟨rfl, .inl rfl, fun _ => rfl⟩

theorem txEngineStep_moves : Answers (TxMoves s) (txEngineStep s) := by
  refine .ite (fun _ => ?_) fun idle => .next (txMoves_idle idle)
  split
  · exact .next (txMoves_raise s _)
  · rw [runCode, decode, decodeTxDesc]
    dsimp only
    split
    · exact exec_txdExt_moves s _
    · exact exec_txd_moves s _

theorem rxEngineStep_moves : Answers (RxMoves s) (rxEngineStep s) := by
  refine .ite (fun _ => .ite (fun _ => .next (rxMoves_refuse s _)) fun _ => ?_) fun idle => .next (rxMoves_idle idle)
  split
  · exact .next (rxMoves_raise s _)
  · exact exec_rxd_moves s _

theorem rxTimerStep_moves : UnitMoves s (rxTimerStep s) := by
  unfold rxTimerStep
  split <;> rfl

theorem eepromStep_moves : UnitMoves s (eepromStep s) := by
  unfold eepromStep
  split
  · split <;> rfl
  · rfl

theorem otherCauseStep_moves : UnitMoves s (otherCauseStep s) := by
  unfold otherCauseStep
  split <;> rfl

/-- What the wire may move: the FIFO, the history, a draw and a refusal. -/
theorem rxArrive_frame (f : List Byte) (ok : Bool) :
    rxArrive f ok s = { s with
      rxFifo := (rxArrive f ok s).rxFifo, history := (rxArrive f ok s).history, draws := (rxArrive f ok s).draws
      refused := (rxArrive f ok s).refused } := by
  unfold rxArrive filtered enqueue
  repeat' split
  all_goals rfl

theorem rxArrive_moves (f : List Byte) (ok : Bool) : UnitMoves s (rxArrive f ok s) := by
  rw [rxArrive_frame]
  rfl

theorem deliverStep_moves (spurious : Bool) : PlatformMoves s (deliverStep spurious s) := by
  unfold deliverStep
  split <;> rfl

end

/-- What a device agent's turn may move, by the agent. -/
theorem runTurn_device_cases {τ : Turn} {s t : State} (device : Stated.DeviceTurn τ) (h : runTurn τ s = .next t) :
    (τ = .txEngine ∧ TxMoves s t) ∨ (τ = .rxEngine ∧ RxMoves s t) ∨ UnitMoves s t
      ∨ ((τ = .deliver ∨ τ = .spurious) ∧ PlatformMoves s t) ∨ (τ = .terminate ∧ t = { s with blocked := none }) := by
  cases τ with
  | host => exact absurd rfl device
  | txEngine => exact .inl ⟨rfl, txEngineStep_moves s t h⟩
  | rxEngine => exact .inr (.inl ⟨rfl, rxEngineStep_moves s t h⟩)
  | rxTimer => exact .inr (.inr (.inl (Host.Outcome.next.inj h ▸ rxTimerStep_moves s)))
  | eeprom => exact .inr (.inr (.inl (Host.Outcome.next.inj h ▸ eepromStep_moves s)))
  | otherCause => exact .inr (.inr (.inl (Host.Outcome.next.inj h ▸ otherCauseStep_moves s)))
  | wire f ok => exact .inr (.inr (.inl (Host.Outcome.next.inj h ▸ rxArrive_moves s f ok)))
  | deliver => exact .inr (.inr (.inr (.inl ⟨.inl rfl, Host.Outcome.next.inj h ▸ deliverStep_moves s false⟩)))
  | spurious => exact .inr (.inr (.inr (.inl ⟨.inr rfl, Host.Outcome.next.inj h ▸ deliverStep_moves s true⟩)))
  | terminate => exact .inr (.inr (.inr (.inr ⟨rfl, (Host.Outcome.next.inj h).symm⟩)))

end Sys2Proof.Machine
end

section
/-! PROOFS. The frames of the register accesses (R108, R200) and of the device agents' turns (R44, R731). -/

namespace Sys2Proof.Machine

open Sys2Proof.Stated

/-- Settles O25: a read moves the value read, the drain also ICR and the history; a write moves what `WriteMoves` says. -/
theorem registerAccessFrame : Obligations.RegisterAccessFrame := by
  intro i s t access answer
  rcases access_instr_cases access with ⟨reg, rfl⟩ | ⟨reg, v, rfl⟩
  · obtain ⟨plain, drain⟩ := onlyTheDrainReadHasASideEffect
    have drawn := readInstr_draws s answer
    by_cases icr : reg = .icr
    · subst icr
      obtain ⟨r, history, rfl⟩ : ∃ r history, t = { s with r := r, icr := 0, history := history } :=
        ⟨_, _, drain s t answer⟩
      have isDrain : Reg.icr.readInstr = .rdIcr := rfl
      have isRead : ∃ reg : Reg, Instr.rdIcr = reg.readInstr := ⟨.icr, rfl⟩
      simp [isDrain, isRead]
    · obtain ⟨r, draws, rfl⟩ : ∃ r draws, t = { s with r := r, draws := draws } := ⟨_, _, plain reg s t icr answer⟩
      have isRead : ∃ reg' : Reg, reg.readInstr = reg'.readInstr := ⟨reg, rfl⟩
      simp only [isRead, or_true, true_or, and_self, true_and]
      exact drawn.imp_right (by rintro (rfl | rfl | rfl | rfl) <;> simp [Reg.readInstr])
  · have moves := writeInstr_moves s reg v t answer
    cases reg <;> rw [moves] <;> simp [Reg.writeInstr]

/-- Settles O44: only an engine moves a cursor, and it is its own head, by one. -/
theorem deviceMovesHeadsByOneAndNoTail : Obligations.DeviceMovesHeadsByOneAndNoTail := by
  intro τ s t device answer
  rcases runTurn_device_cases device answer with ⟨rfl, moves, head⟩ | ⟨rfl, moves, head, -⟩ | moves | ⟨-, moves⟩ | ⟨-, moves⟩
  · have tdt : t.tdt = s.tdt := by rw [moves]
    have rdt : t.rdt = s.rdt := by rw [moves]
    have other : t.rdh = s.rdh := by rw [moves]
    refine ⟨tdt, rdt, fun no => absurd rfl no, fun _ => other, fun legal moved => ?_,
      fun _ moved => absurd other moved⟩
    rcases head with next | ⟨stays, -⟩
    · rw [next]
      exact RingView.next_toNat legal _
    · exact absurd stays moved
  · have tdt : t.tdt = s.tdt := by rw [moves]
    have rdt : t.rdt = s.rdt := by rw [moves]
    have other : t.tdh = s.tdh := by rw [moves]
    refine ⟨tdt, rdt, fun _ => other, fun no => absurd rfl no, fun _ moved => absurd other moved,
      fun legal moved => ?_⟩
    rcases head with next | ⟨stays, -⟩
    · rw [next]
      exact RingView.next_toNat legal _
    · exact absurd stays moved
  all_goals
    rw [moves]
    exact ⟨rfl, rfl, fun _ => rfl, fun _ => rfl, fun _ moved => absurd rfl moved, fun _ moved => absurd rfl moved⟩

/-- Settles O45: no agent's moves name a configuration register, and the host's context, its consumer and memory are moved
by the platform, the scheduler and the engines alone. -/
theorem deviceKeepsConfiguration : Obligations.DeviceKeepsConfiguration := by
  intro τ s t device answer
  rcases runTurn_device_cases device answer with ⟨rfl, moves, -⟩ | ⟨rfl, moves, -⟩ | moves | ⟨rfl | rfl, moves⟩ | ⟨rfl, moves⟩ <;>
    rw [moves] <;> simp

end Sys2Proof.Machine
end

section
/-! SUPPORT. Fair runs (R740): a fair agent whose step stays enabled takes it, and a unit that was started stays started
until its own step ends it (R330, R364). -/

namespace Sys2Proof.Machine

/-! ### Started units -/

/-- The EEPROM unit is busy if `busy`, and the receive timer armed if `armed`. -/
def UnitsStarted (busy armed : Bool) (s : State) : Prop :=
  (busy = true → s.eeBusy = true) ∧ (armed = true → s.rxTimerArmed = true)

section
variable {busy armed : Bool} {s : State} (started : UnitsStarted busy armed s)
include started

theorem writeInstr_keeps_started (reg : Reg) (v : Word) :
    Answers (UnitsStarted busy armed) (exec (reg.writeInstr v) s) := by
  cases reg with
  | eerd =>
    obtain ⟨eeprom, timer⟩ := started
    exact .ite (fun _ => .next ⟨eeprom, timer⟩) fun _ =>
      .ite (fun _ => .next ⟨fun _ => rfl, timer⟩) fun _ => .next ⟨eeprom, timer⟩
  | _ =>
    intro t answer
    rw [writeInstr_moves s _ v t answer]
    exact started

theorem hostWrites_keeps_started (al : Bool) (a : Addr) (bytes : List Byte) :
    Answers (UnitsStarted busy armed) (hostWrites al a bytes s) :=
  .ite (fun _ => .next started) fun _ => .ite (fun _ => .next started) fun _ => .next started

theorem readRule_keeps_started (reg : Reg) : Answers (UnitsStarted busy armed) (readRule reg s) := by
  rcases readRule_cases reg s with ⟨v, h⟩ | ⟨v, h⟩ | ⟨-, h⟩ <;> rw [h] <;> exact .next started

theorem readThenWrite_keeps_started (o : Nat) (upd : Word → Word) :
    Answers (UnitsStarted busy armed) (readThenWrite o upd s) := by
  intro t h
  rcases readThenWrite_cases h with ⟨e, -, rfl⟩ | ⟨reg, u, -, read, rfl⟩
  · cases e <;> exact started
  · exact readRule_keeps_started started reg u read

/-- No instruction ends a started unit. -/
theorem exec_keeps_started (i : Instr) : Answers (UnitsStarted busy armed) (exec i s) := by
  by_cases access : ∃ a, encode i = .access a
  · rcases access_instr_cases access with ⟨reg, rfl⟩ | ⟨reg, v, rfl⟩
    · rw [exec_readInstr]
      exact readRule_keeps_started started reg
    · exact writeInstr_keeps_started started reg v
  cases i with
  | txd d =>
    intro t answer
    obtain ⟨moves, -⟩ := exec_txd_moves s d t answer
    rw [moves]
    exact started
  | txdExt d => exact .ite (fun _ => .next started) fun _ => .next started
  | rxd d =>
    intro t answer
    obtain ⟨moves, -, keeps⟩ := exec_rxd_moves s d t answer
    have same : t.eeBusy = s.eeBusy := by rw [moves]
    exact ⟨same ▸ started.1, fun a => keeps (started.2 a)⟩
  | ld n a =>
    rw [exec_ld]
    exact hostReads_answers (fun _ => started) (fun _ => started) fun _ => started
  | st n a v => exact hostWrites_keeps_started started _ a _
  | copy a bytes => exact hostWrites_keeps_started started _ a _
  | setBits o m =>
    rw [exec_setBits]
    exact readThenWrite_keeps_started started o _
  | clearBits o m =>
    rw [exec_clearBits]
    exact readThenWrite_keeps_started started o _
  | writeField o m sh v => exact .ite (fun _ => .next started) fun _ => readThenWrite_keeps_started started o _
  | _ => exact absurd ⟨_, rfl⟩ access

end

theorem unitsStarted_keptByHost (busy armed : Bool) : KeptByHost (UnitsStarted busy armed) where
  moves := by
    intro s t started moves
    rw [moves]
    exact started
  returns started := started
  rings started _ _ := started
  raises started _ _ _ := started
  refuses started _ _ _ := started
  executes started _ i := exec_keeps_started started i

section
variable {τ : Turn} {s t : State} (unmarked : s.Unmarked) (turn : runTurn τ s = .next t)
include unmarked turn

/-- A busy EEPROM unit stays busy but for its own step. -/
theorem eeBusy_of_turn (busy : s.eeBusy = true) (other : τ ≠ .eeprom) : t.eeBusy = true := by
  cases τ with
  | eeprom => exact absurd rfl other
  | host =>
    obtain ⟨eeprom, -⟩ := (unitsStarted_keptByHost true false).hostStep ⟨fun _ => busy, nofun⟩ unmarked t turn
    exact eeprom rfl
  | txEngine =>
    obtain ⟨moves, -⟩ := txEngineStep_moves s t turn
    rw [moves]
    exact busy
  | rxEngine =>
    obtain ⟨moves, -⟩ := rxEngineStep_moves s t turn
    rw [moves]
    exact busy
  | wire f ok =>
    obtain rfl := Host.Outcome.next.inj turn
    rw [rxArrive_frame]
    exact busy
  | rxTimer =>
    obtain rfl := Host.Outcome.next.inj turn
    unfold rxTimerStep
    split <;> exact busy
  | otherCause =>
    obtain rfl := Host.Outcome.next.inj turn
    rw [otherCauseStep_of_unmarked unmarked]
    exact busy
  | deliver | spurious =>
    obtain rfl := Host.Outcome.next.inj turn
    rw [deliverStep_moves s _]
    exact busy
  | terminate =>
    obtain rfl := Host.Outcome.next.inj turn
    exact busy

/-- An armed receive timer stays armed but for its own step. -/
theorem rxTimerArmed_of_turn (armed : s.rxTimerArmed = true) (other : τ ≠ .rxTimer) : t.rxTimerArmed = true := by
  cases τ with
  | rxTimer => exact absurd rfl other
  | host =>
    obtain ⟨-, timer⟩ := (unitsStarted_keptByHost false true).hostStep ⟨nofun, fun _ => armed⟩ unmarked t turn
    exact timer rfl
  | txEngine =>
    obtain ⟨moves, -⟩ := txEngineStep_moves s t turn
    rw [moves]
    exact armed
  | rxEngine =>
    obtain ⟨-, -, keeps⟩ := rxEngineStep_moves s t turn
    exact keeps armed
  | wire f ok =>
    obtain rfl := Host.Outcome.next.inj turn
    rw [rxArrive_frame]
    exact armed
  | eeprom =>
    obtain rfl := Host.Outcome.next.inj turn
    unfold eepromStep
    split
    · split <;> exact armed
    · exact armed
  | otherCause =>
    obtain rfl := Host.Outcome.next.inj turn
    rw [otherCauseStep_of_unmarked unmarked]
    exact armed
  | deliver | spurious =>
    obtain rfl := Host.Outcome.next.inj turn
    rw [deliverStep_moves s _]
    exact armed
  | terminate =>
    obtain rfl := Host.Outcome.next.inj turn
    exact armed

end

/-- The EEPROM unit's own step ends the read with DONE = 1 (R364). -/
theorem eepromStep_ends {s : State} (unmarked : s.Unmarked) (busy : s.eeBusy = true) :
    (eepromStep s).eeBusy = false ∧ (eepromStep s).eerdDone = true := by
  rw [eepromStep_of_busy unmarked busy]
  split <;> exact ⟨rfl, rfl⟩

/-- The receive timer's own step latches RXT0 (R330). -/
theorem rxTimerStep_latches {s : State} (unmarked : s.Unmarked) (armed : s.rxTimerArmed = true) :
    (rxTimerStep s).icr.getLsbD 7 = true := by
  rw [rxTimerStep_of_armed unmarked armed, BitVec.getLsbD_or]
  exact Bool.or_true _

/-! ### Fairness -/

/-- No fair agent's step is enabled in a marked state (R603). -/
theorem unmarked_of_enabled {τ : Turn} {s : State} (isFair : τ ∈ fairTurns) (h : enabled τ s = true) : s.Unmarked := by
  simp only [fairTurns, List.mem_cons, List.not_mem_nil, or_false] at isFair
  rcases isFair with rfl | rfl | rfl | rfl | rfl <;>
    simp only [enabled, State.txCanStep, State.rxCanStep, State.timerCanStep, State.eepromCanStep, State.canDeliver,
      Bool.and_eq_true, Bool.not_eq_true'] at h <;> tauto

theorem not_enabled_of_marked {τ : Turn} {s : State} (isFair : τ ∈ fairTurns) (marked : s.marked = true) :
    enabled τ s = false :=
  Bool.eq_false_iff.2 fun h => Bool.false_ne_true ((unmarked_of_enabled isFair h).symm.trans marked)

/-- Why the platform cannot deliver (R622). -/
theorem not_deliverable_cases {s : State} (h : enabled .deliver s = false) :
    s.ctx = .irq ∨ s.ie = false ∨ s.irqUnmasked = false ∨ s.line = false ∨ s.marked = true := by
  cases ctx : s.ctx with
  | irq => exact .inl rfl
  | thread =>
    simp only [enabled, State.canDeliver, State.canInterrupt, ctx, Bool.and_eq_false_iff, beq_self_eq_true,
      Bool.true_eq_false, false_or, Bool.not_eq_false', bne_eq_false_iff_eq] at h
    tauto

section
variable {who : Nat → Turn} {run : Nat → State} (fair : fairRun who run)
include fair

/-- From any point on a fair agent is found without an enabled step, or taking one. -/
theorem fair_agent_idles_or_steps {τ : Turn} (isFair : τ ∈ fairTurns) (n : Nat) :
    ∃ m, n ≤ m ∧ (enabled τ (run m) = false
      ∨ (enabled τ (run m) = true ∧ runTurn τ (run m).begin = .next (run (m + 1)))) := by
  obtain ⟨isRun, fairly⟩ := fair
  by_cases stays : ∀ m, n ≤ m → enabled τ (run m) = true
  · obtain ⟨m, later, taken⟩ := fairly τ isFair n stays
    have unmarked := unmarked_of_enabled isFair (stays m later)
    rcases follows_cases (isRun m) with ⟨marked, -⟩ | ⟨-, turn⟩
    · exact absurd (unmarked.symm.trans marked) Bool.false_ne_true
    · exact ⟨m, later, .inr ⟨stays m later, taken ▸ turn⟩⟩
  · push Not at stays
    obtain ⟨m, later, idle⟩ := stays
    exact ⟨m, later, .inl (Bool.eq_false_iff.2 idle)⟩

/-- What a fair agent's step is enabled by, and only that step ends, is ended (R740), unless a mark stops the machine. -/
theorem fair_agent_ends_what_enables_it {τ : Turn} (isFair : τ ∈ fairTurns) {Pending Ended : State → Prop}
    (enables : ∀ s : State, s.Unmarked → Pending s → enabled τ s = true)
    (ends : ∀ s t : State, s.Unmarked → Pending s → runTurn τ s = .next t → Ended t)
    (stays : ∀ σ, σ ≠ τ → ∀ s t : State, s.Unmarked → Pending s → runTurn σ s = .next t → Pending t)
    (ofBegin : ∀ s : State, Pending s → Pending s.begin) {n : Nat} (start : Pending (run n)) :
    ∃ m, n ≤ m ∧ ((run m).marked = true ∨ Ended (run m)) := by
  by_contra never
  push Not at never
  have unmarked (m : Nat) (later : n ≤ m) : (run m).Unmarked := Bool.eq_false_iff.2 (never m later).1
  have pending (m : Nat) (later : n ≤ m) : Pending (run m) := by
    induction m, later using Nat.le_induction with
    | base => exact start
    | succ m later ih =>
      rcases follows_cases (fair.1 m) with ⟨marked, -⟩ | ⟨free, turn⟩
      · exact absurd marked (never m later).1
      · by_cases own : who m = τ
        · exact absurd (ends (run m).begin _ free (ofBegin _ ih) (own ▸ turn)) (never (m + 1) (Nat.le_succ_of_le later)).2
        · exact stays _ own (run m).begin _ free (ofBegin _ ih) turn
  obtain ⟨m, later, idle | ⟨-, turn⟩⟩ := fair_agent_idles_or_steps fair isFair n
  · exact Bool.false_ne_true (idle.symm.trans (enables _ (unmarked m later) (pending m later)))
  · exact (never (m + 1) (Nat.le_succ_of_le later)).2 (ends (run m).begin _ (unmarked m later) (ofBegin _ (pending m later)) turn)

end

end Sys2Proof.Machine
end

section
/-! PROOFS. Progress in fair runs (R740). -/

namespace Sys2Proof.Machine

/-- Settles O60: each fair agent is found idle or stepping; a started unit is pending until its own step. -/
theorem fairRunsMakeProgress : Obligations.FairRunsMakeProgress := by
  intro who run fair n
  have idlesOrSteps := @fair_agent_idles_or_steps who run fair
  refine ⟨fun busy => ?_, fun armed => ?_, ?_, ?_, ?_⟩
  · refine fair_agent_ends_what_enables_it fair (τ := .eeprom) (by decide) (Pending := fun s => s.eeBusy = true)
      (Ended := fun s => s.eeBusy = false ∧ s.eerdDone = true) (fun s unmarked busy => ?_)
      (fun s t unmarked busy turn => ?_) (fun σ other s t unmarked busy turn => eeBusy_of_turn unmarked turn busy other)
      (fun s => id) busy
    · rw [enabled, State.eepromCanStep, busy, unmarked]
      rfl
    · exact Host.Outcome.next.inj turn ▸ eepromStep_ends unmarked busy
  · refine fair_agent_ends_what_enables_it fair (τ := .rxTimer) (by decide) (Pending := fun s => s.rxTimerArmed = true)
      (Ended := fun s => s.icr.getLsbD 7 = true) (fun s unmarked armed => ?_)
      (fun s t unmarked armed turn => ?_)
      (fun σ other s t unmarked armed turn => rxTimerArmed_of_turn unmarked turn armed other) (fun s => id) armed
    · rw [enabled, State.timerCanStep, armed, unmarked]
      rfl
    · exact Host.Outcome.next.inj turn ▸ rxTimerStep_latches unmarked armed
  · obtain ⟨m, later, idle | ⟨canStep, turn⟩⟩ := idlesOrSteps (τ := .txEngine) (by decide) n
    · exact ⟨m, later, .inl idle⟩
    · obtain ⟨-, advanced | ⟨-, marked⟩⟩ := txEngineStep_moves _ _ turn
      · exact ⟨m, later, .inr advanced⟩
      · exact ⟨m + 1, Nat.le_succ_of_le later, .inl (not_enabled_of_marked (τ := .txEngine) (by decide) (marked canStep))⟩
  · obtain ⟨m, later, idle | ⟨canStep, turn⟩⟩ := idlesOrSteps (τ := .rxEngine) (by decide) n
    · exact ⟨m, later, .inl idle⟩
    · obtain ⟨-, advanced | ⟨-, marked⟩, -⟩ := rxEngineStep_moves _ _ turn
      · exact ⟨m, later, .inr advanced⟩
      · exact ⟨m + 1, Nat.le_succ_of_le later, .inl (not_enabled_of_marked (τ := .rxEngine) (by decide) (marked canStep))⟩
  · obtain ⟨m, later, idle | ⟨canDeliver, turn⟩⟩ := idlesOrSteps (τ := .deliver) (by decide) n
    · exact ⟨m, later, not_deliverable_cases idle⟩
    · have entered := (Host.Outcome.next.inj turn).symm.trans (deliverStep_of_canDeliver (s := (run m).begin) canDeliver)
      exact ⟨m + 1, Nat.le_succ_of_le later, .inl (by rw [entered]; rfl)⟩

end Sys2Proof.Machine
end

section
/-! SUPPORT. Pseudo-operations on the registers R731 names (R210 to R213): what the read returns, and what the admitted write
leaves. -/

namespace Sys2Proof.Machine

open Sys2Proof.Stated

/-! ### The host's next command -/

section
variable {s : State} {rest : List HostCmd}

theorem runTurn_op {o : HostOp} (code : s.code = .op o :: rest) :
    runTurn .host s = exec o.instr { s with code := rest } :=
  runTurn_host_of_code code

theorem runTurn_wr {reg : Reg} {v : Word} (code : s.code = .access (Access.wr reg.offset v) :: rest) :
    runTurn .host s = exec (reg.writeInstr v) { s with code := rest } :=
  (runTurn_host_of_code code).trans (runCode_of_access_ok (decodeAccess_wr reg v) _)

theorem runTurn_ret {v : Result} (code : s.code = .ret v :: rest) :
    runTurn .host s = .next { s with code := rest, results := v :: s.results } :=
  runTurn_host_of_code code

end

/-! ### The two accesses -/

section
variable {reg : Reg} {x : Word} {s : State} (admitted : WriteAdmitted reg x s)
include admitted

/-- A read of such a register returns what it stores. -/
theorem readInstr_stored (rest : List HostCmd) :
    exec reg.readInstr { s with code := rest } =
      .next { s with code := rest, r := (stored reg s).setWidth 64 } := by
  cases reg with
  | tctl | rctl | tipg | tdbal | tdbah | tdlen | rdbal | rdbah | rdlen | ral0 | rah0 => rfl
  | _ => exact admitted.elim

/-- An admitted write stores the value and does nothing else. -/
theorem writeInstr_stored : exec (reg.writeInstr x) s = .next (withStored reg x s) := by
  cases reg with
  | tipg | ral0 | rah0 => rfl
  | tdbal | tdbah | tdlen | rdbal | rdbah | rdlen => exact unlessEnabled_of_disabled admitted _ _ _
  | tctl =>
    rcases admitted with off | ⟨good, aligned, clear⟩
    · exact exec_wrTctl_of_not_en off s
    · by_cases on : x.getLsbD 1 = true
      · rw [Reg.writeInstr, exec_wrTctl_of_en on]
        exact congrArg Host.Outcome.next (enableChecks_of_admitted _ _ _ _ good aligned clear)
      · exact exec_wrTctl_of_not_en (Bool.eq_false_iff.2 on) s
  | rctl =>
    rcases admitted with off | ⟨good, aligned, clear⟩
    · exact exec_wrRctl_of_not_en off s
    · by_cases on : x.getLsbD 1 = true
      · rw [Reg.writeInstr, exec_wrRctl_of_en on]
        exact congrArg Host.Outcome.next (enableChecks_of_admitted _ _ _ _ good aligned clear)
      · exact exec_wrRctl_of_not_en (Bool.eq_false_iff.2 on) s
  | _ => exact admitted.elim

/-- Whether a write is admitted, and what it leaves, does not depend on the program or the value last read. -/
theorem writeAdmitted_of_host (code : List HostCmd) (r : BitVec 64) :
    WriteAdmitted reg x { s with code := code, r := r } := by
  cases reg <;> exact admitted

end

theorem withStored_of_host (reg : Reg) (x : Word) (s : State) (code : List HostCmd) (r : BitVec 64) :
    withStored reg x { s with code := code, r := r } = { withStored reg x s with code := code, r := r } := by
  cases reg <;> rfl

/-- A pseudo-operation on a register is the read, then the queued write of its changed value. -/
theorem exec_pseudoOn {o : HostOp} {reg : Reg} {x : Word} {s : State} (on : PseudoOn o reg x s) :
    ∃ upd : Word → Word, upd (stored reg s) = x ∧ ∀ u, exec o.instr u = readThenWrite reg.offset upd u := by
  cases o with
  | setBits off m =>
    obtain ⟨rfl, rfl⟩ := on
    exact ⟨fun r => r ||| m, rfl, fun u => exec_setBits _ m u⟩
  | clearBits off m =>
    obtain ⟨rfl, rfl⟩ := on
    exact ⟨fun r => r &&& ~~~m, rfl, fun u => exec_clearBits _ m u⟩
  | writeField off m sh v =>
    obtain ⟨rfl, narrow, rfl⟩ := on
    exact ⟨placeField m sh v, rfl, fun u => exec_writeField_of_shift_lt narrow _ m v u⟩
  | ld | st | copy => exact on.elim

/-! ### The test interrupt -/

/-- The duty's first step: interrupts off, and the write of ICS put next (R396, R631). -/
theorem runTurn_generateTestInterrupt {s : State} {rest : List HostCmd}
    (code : s.code = .call .generateTestInterrupt :: rest) :
    runTurn .host s = .next { s with
      ie := false, code := .access (Access.wr Reg.ics.offset 0x80) :: .setIe s.ie :: rest } :=
  runTurn_host_of_code code

/-- With RXT0 latched and enabled the line is asserted (R620). -/
theorem line_of_rxt0 {s : State} (latched : s.icr.getLsbD 7 = true) (on : s.mask.getLsbD 7 = true) : s.line = true := by
  refine line_eq_true_iff.2 fun none => ?_
  have bit : (s.icr &&& s.mask).getLsbD 7 = false := by rw [none]; rfl
  rw [BitVec.getLsbD_and, latched, on] at bit
  exact Bool.false_ne_true bit.symm

end Sys2Proof.Machine
end

section
/-! PROOFS. Pseudo-operations in two host steps (R210 to R213), and the test interrupt (R396). -/

namespace Sys2Proof.Machine

open Sys2Proof.Stated

/-- Settles O49: the first step is the read with the write queued, the second that write, which is admitted still. -/
theorem pseudoOperationTakesTwoHostSteps : Obligations.PseudoOperationTakesTwoHostSteps := by
  intro reg o x s rest code on admitted
  obtain ⟨upd, changed, expands⟩ := exec_pseudoOn on
  have first : runTurn .host s = .next { s with
      r := (stored reg s).setWidth 64, code := .access (Access.wr reg.offset x) :: rest } := by
    rw [runTurn_op code, expands, readThenWrite_offset (readInstr_stored admitted rest)]
    have word : (State.word { s with code := rest, r := (stored reg s).setWidth 64 }) = stored reg s :=
      getsWord_word { s with code := rest } (stored reg s)
    rw [word, changed]
    rfl
  refine ⟨_, _, first, ?_, rfl, rfl⟩
  rw [runTurn_wr rfl]
  exact (writeInstr_stored (writeAdmitted_of_host admitted rest ((stored reg s).setWidth 64))).trans
    (congrArg Host.Outcome.next (withStored_of_host reg x s rest ((stored reg s).setWidth 64)))

/-- Settles O58: the duty's first step queues the write of ICS, which the second runs. -/
theorem testInterruptLatchesRxt0 : Obligations.TestInterruptLatchesRxt0 := by
  intro s rest code
  have latched : (setCauses s.icr 0x80).getLsbD 7 = true := by
    rw [setCauses, BitVec.getLsbD_or]
    exact Bool.or_true _
  exact ⟨_, _, runTurn_generateTestInterrupt code, runTurn_host_wr_ics _ rfl, rfl, fun on => line_of_rxt0 latched on, rfl, rfl⟩

end Sys2Proof.Machine
end

section
/-! SUPPORT. The host's steps of a transmit past its tests, and of a receive past its own (R270, R340, R344): each is one
access of a range the host may use, and leaves such ranges as they were. -/

namespace Sys2Proof.Machine

open Sys2Proof.Stated

/-! ### Ranges the host may write -/

/-- The `n` bytes at `a` are in `MEM` and in no device-owned region (R116, R207). -/
def HostMayWrite (s : State) (a : Addr) (n : Nat) : Prop :=
  InMem s a n ∧ s.ownedDescMeets a n = false ∧ s.ownedBufferMeets a n = false

/-- A part of a range meets what it meets with the whole. -/
theorem meets_of_part {a b : Addr} {k n m l : Nat} (fits : k + n ≤ m)
    (h : meets (a + BitVec.ofNat 64 k) n b l = true) : meets a m b l = true := by
  obtain ⟨x, inPart, inOther⟩ := (meets_iff _ _ _ _).1 h
  exact (meets_iff _ _ _ _).2 ⟨x, inside_of_part inPart fits, inOther⟩

theorem ownedBufferMeets_of_part {s : State} {a : Addr} {k n m : Nat} (fits : k + n ≤ m)
    (free : s.ownedBufferMeets a m = false) : s.ownedBufferMeets (a + BitVec.ofNat 64 k) n = false := by
  have ring {ring : Ring} (free : ringBufferMeets ring s a m = false) :
      ringBufferMeets ring s (a + BitVec.ofNat 64 k) n = false := by
    refine Bool.eq_false_iff.2 fun met => Bool.eq_false_iff.1 free ?_
    obtain ⟨j, below, shares⟩ := (ringBufferMeets_iff _ _ _ _).1 met
    exact (ringBufferMeets_iff _ _ _ _).2 ⟨j, below, meets_of_part fits shares⟩
  obtain ⟨tx, rx⟩ := Bool.or_eq_false_iff.1 free
  exact Bool.or_eq_false_iff.2 ⟨ring tx, ring rx⟩

theorem ownedDescMeets_of_part {s : State} {a : Addr} {k n m : Nat} (fits : k + n ≤ m)
    (free : s.ownedDescMeets a m = false) : s.ownedDescMeets (a + BitVec.ofNat 64 k) n = false := by
  have ring {v : RingView} (free : v.ownedDescMeets a m = false) : v.ownedDescMeets (a + BitVec.ofNat 64 k) n = false := by
    refine Bool.eq_false_iff.2 fun met => Bool.eq_false_iff.1 free ?_
    obtain ⟨j, below, shares⟩ := (ownedDescMeets_iff _ _ _).1 met
    exact (ownedDescMeets_iff _ _ _).2 ⟨j, below, meets_of_part fits shares⟩
  obtain ⟨tx, rx⟩ := Bool.or_eq_false_iff.1 free
  exact Bool.or_eq_false_iff.2 ⟨ring tx, ring rx⟩

namespace HostMayWrite

section
variable {s : State} {a : Addr} {n : Nat} (may : HostMayWrite s a n)
include may

theorem part {k m : Nat} (fits : k + m ≤ n) : HostMayWrite s (a + BitVec.ofNat 64 k) m := by
  obtain ⟨mapped, noDesc, noBuffer⟩ := may
  exact ⟨inMem_of_part mapped fits, ownedDescMeets_of_part fits noDesc, ownedBufferMeets_of_part fits noBuffer⟩

/-- What the host may write it may write after another such write, whatever its program and last value. -/
theorem of_write {b : Addr} {bytes : List Byte} (short : bytes.length ≤ 2 ^ 64) (other : HostMayWrite s b bytes.length)
    (code : List HostCmd) : HostMayWrite { s with code := code, mem := writeBytes s.mem b bytes } a n := by
  obtain ⟨mapped, noDesc, noBuffer⟩ := may
  obtain ⟨-, otherDesc, -⟩ := other
  exact ⟨mapped, noDesc, (ownedBufferMeets_of_write short otherDesc a n).trans noBuffer⟩

theorem of_store {n' : Size} {b : Addr} (other : HostMayWrite s b n'.bytes) (v : BitVec 64) (code : List HostCmd) :
    HostMayWrite { s with code := code, mem := writeBytes s.mem b (leBytes n'.bytes v.toNat) } a n := by
  have length : (leBytes n'.bytes v.toNat).length = n'.bytes := leBytes_length _ _
  refine may.of_write ?_ ?_ code <;> rw [length]
  · exact size_bytes_le n'
  · exact other

theorem free : (s.ownedDescMeets a n || s.ownedBufferMeets a n) = false := by
  obtain ⟨-, noDesc, noBuffer⟩ := may
  rw [noDesc, noBuffer]
  rfl

end

/-- A store by the host's program to a range it may write. -/
theorem runTurn_store {s : State} {rest : List HostCmd} {n : Size} {a : Addr} {v : BitVec 64}
    (code : s.code = .op (.st n a v) :: rest) (aligned : a.toNat % n.bytes = 0) (may : HostMayWrite s a n.bytes) :
    runTurn .host s = .next { s with code := rest, mem := writeBytes s.mem a (leBytes n.bytes v.toNat) } := by
  rw [runTurn_op code]
  exact exec_st_of_free (s := { s with code := rest }) aligned may.1 may.free

end HostMayWrite

/-- A doorbell write of a cursor below the ring size stores it (R244). -/
theorem runTurn_wr_tdt {s : State} {rest : List HostCmd} {i : Nat}
    (code : s.code = .access (Access.wr Reg.tdt.offset (BitVec.ofNat 32 i)) :: rest) (legal : Legal s.tdlen)
    (below : i < Stated.size s.tdlen) :
    ∃ c : Half, c.toNat = i ∧ runTurn .host s = .next { s with code := rest, tdt := c } := by
  have small := (size_of_legal legal).2.2
  have value : (BitVec.ofNat 32 i).toNat = i := by rw [BitVec.toNat_ofNat, Nat.mod_eq_of_lt (by omega)]
  have inRange : (BitVec.ofNat 32 i).toNat < Stated.size s.tdlen := value.trans_lt below
  refine ⟨_, (setWidth_toNat_of_lt_size legal inRange).trans value, ?_⟩
  rw [runTurn_wr code, Reg.writeInstr, exec_wrTdt, cursorWrite_of_good (.inl ⟨legal, inRange⟩)]

/-- Likewise for the receive ring (R304). -/
theorem runTurn_wr_rdt {s : State} {rest : List HostCmd} {i : Nat}
    (code : s.code = .access (Access.wr Reg.rdt.offset (BitVec.ofNat 32 i)) :: rest) (legal : Legal s.rdlen)
    (below : i < Stated.size s.rdlen) :
    ∃ c : Half, c.toNat = i ∧ runTurn .host s = .next { s with code := rest, rdt := c } := by
  have small := (size_of_legal legal).2.2
  have value : (BitVec.ofNat 32 i).toNat = i := by rw [BitVec.toNat_ofNat, Nat.mod_eq_of_lt (by omega)]
  have inRange : (BitVec.ofNat 32 i).toNat < Stated.size s.rdlen := value.trans_lt below
  refine ⟨_, (setWidth_toNat_of_lt_size legal inRange).trans value, ?_⟩
  rw [runTurn_wr code, Reg.writeInstr, exec_wrRdt, cursorWrite_of_good (.inl ⟨legal, inRange⟩)]

/-! ### Addresses of a descriptor -/

/-- A field of a transmit descriptor lies at its offset in the descriptor. -/
theorem txField_eq (d : Driver) (i off : Nat) :
    txField d i off = d.txRing + BitVec.ofNat 64 (16 * i) + BitVec.ofNat 64 off := by
  rw [txField, BitVec.ofNat_add, ← BitVec.add_assoc]

theorem rxField_eq (d : Driver) (i off : Nat) :
    rxField d i off = d.rxRing + BitVec.ofNat 64 (16 * i) + BitVec.ofNat 64 off := by
  rw [rxField, BitVec.ofNat_add, ← BitVec.add_assoc]

/-- In a 16-byte aligned descriptor the two bytes of the length are aligned (R114). -/
theorem lengthField_aligned {d : Addr} (aligned : d.toNat % 16 = 0) : (d + 8).toNat % Size.two.bytes = 0 := by
  rw [BitVec.toNat_add]
  change (d.toNat + 8) % 2 ^ 64 % 2 = 0
  omega

/-! ### transmit -/

/-- Slot and next slot are done: the packet is copied into the slot's buffer, and the rest is put next. -/
theorem runTurn_txQueue_of_done {s : State} {rest : List HostCmd} {p : List Byte} {t : Nat} {d buf : Addr}
    (code : s.code = .txQueue p t :: rest) (dd : s.r.getLsbD 0 = true)
    (slot : d = s.drv.txRing + BitVec.ofNat 64 (16 * t)) (buffer : buf = s.txBuffer t) (may : HostMayWrite s buf p.length) :
    runTurn .host s = .next { s with
      mem := writeBytes s.mem buf p
      code := .op (.st .two (d + 8) (BitVec.ofNat 64 p.length)) :: .op (.st .one (d + 11) 0x09) :: .op (.st .one (d + 12) 0)
        :: .access (Access.wr Reg.tdt.offset (BitVec.ofNat 32 (slotAfter t s.drv.nTx))) :: .ret .ok :: rest } := by
  have field (off : Nat) : txField s.drv t off = d + BitVec.ofNat 64 off := by rw [txField_eq, slot]
  subst buffer
  rw [runTurn_host_of_code code]
  refine (if_pos dd).trans ?_
  refine (hostWrites_of_free (s := State.pushCode { s with code := rest } _) ⟨rfl, may.1⟩ may.free).trans ?_
  simp only [State.pushCode, List.cons_append, List.nil_append, field]
  rfl

/-- After the copy: the descriptor's length and command, its cleared status byte, the doorbell and the return. -/
theorem runTurn_txDescriptor {s : State} {rest : List HostCmd} {d : Addr} {length i : Nat}
    (code : s.code = .op (.st .two (d + 8) (BitVec.ofNat 64 length)) :: .op (.st .one (d + 11) 0x09)
      :: .op (.st .one (d + 12) 0) :: .access (Access.wr Reg.tdt.offset (BitVec.ofNat 32 i)) :: .ret .ok :: rest)
    (may : HostMayWrite s d 16) (aligned : d.toNat % 16 = 0) (short : length < 65536) (legal : Legal s.tdlen)
    (below : i < Stated.size s.tdlen) :
    ∃ (t1 t2 t3 t4 : State) (c : Half), c.toNat = i ∧ runTurn .host s = .next t1 ∧ runTurn .host t1 = .next t2
      ∧ runTurn .host t2 = .next t3 ∧ runTurn .host t3 = .next t4 ∧ runTurn .host t4 = .next { s with
        mem := writeBytes (writeBytes (writeBytes s.mem (d + 8) (leBytes 2 length)) (d + 11) [0x09]) (d + 12) [0]
        tdt := c, results := .ok :: s.results, code := rest } := by
  have value : (BitVec.ofNat 64 length).toNat = length := by rw [BitVec.toNat_ofNat, Nat.mod_eq_of_lt (by omega)]
  have lengthMay : HostMayWrite s (d + 8) Size.two.bytes := may.part (k := 8) (by decide)
  have may := may.of_store (n' := .two) lengthMay (BitVec.ofNat 64 length) (.op (.st .one (d + 11) 0x09)
      :: .op (.st .one (d + 12) 0) :: .access (Access.wr Reg.tdt.offset (BitVec.ofNat 32 i)) :: .ret .ok :: rest)
  have cmdMay : HostMayWrite _ (d + 11) Size.one.bytes := may.part (k := 11) (by decide)
  have may := may.of_store (n' := .one) cmdMay 0x09 (.op (.st .one (d + 12) 0)
      :: .access (Access.wr Reg.tdt.offset (BitVec.ofNat 32 i)) :: .ret .ok :: rest)
  have statusMay : HostMayWrite _ (d + 12) Size.one.bytes := may.part (k := 12) (by decide)
  have setsLength := HostMayWrite.runTurn_store code (lengthField_aligned aligned) lengthMay
  have setsCmd := HostMayWrite.runTurn_store rfl (Nat.mod_one _) cmdMay
  have clearsStatus := HostMayWrite.runTurn_store rfl (Nat.mod_one _) statusMay
  obtain ⟨c, isNext, rings⟩ := runTurn_wr_tdt (s := { s with
    code := .access (Access.wr Reg.tdt.offset (BitVec.ofNat 32 i)) :: .ret .ok :: rest
    mem := writeBytes (writeBytes (writeBytes s.mem (d + 8) (leBytes 2 (BitVec.ofNat 64 length).toNat)) (d + 11) [0x09])
      (d + 12) [0] }) rfl legal below
  rw [value] at rings
  rw [value] at setsLength setsCmd clearsStatus
  exact ⟨_, _, _, _, c, isNext, setsLength, setsCmd, clearsStatus, rings, runTurn_ret rfl⟩

/-- The descriptor a transmit leaves in memory at `d`, after the packet in its buffer. -/
def txQueued (m : Memory) (d buf : Addr) (p : List Byte) : Memory :=
  writeBytes (writeBytes (writeBytes (writeBytes m buf p) (d + 8) (leBytes 2 p.length)) (d + 11) [0x09]) (d + 12) [0]

/-- Byte `k` of a little-endian number (R100). -/
theorem leBytes_getD {n k : Nat} (h : k < n) (v : Nat) : (leBytes n v).getD k 0 = BitVec.ofNat 8 (v / 256 ^ k) := by
  induction n generalizing k v with
  | zero => exact absurd h (Nat.not_lt_zero k)
  | succ n ih =>
    cases k with
    | zero => simp [leBytes]
    | succ k =>
      rw [leBytes, List.getD_cons_succ, ih (Nat.lt_of_succ_lt_succ h), Nat.div_div_eq_div_mul, Nat.pow_succ']

theorem memGet_txQueued (m : Memory) (d buf : Addr) {p : List Byte} (short : p.length ≤ 2 ^ 64) (x : Addr) :
    memGet (txQueued m d buf p) x.toNat =
      if x = d + 12 then 0 else if x = d + 11 then 0x09
      else if Inside x (d + 8) 2 then BitVec.ofNat 8 (p.length / 256 ^ (x - (d + 8)).toNat)
      else if Inside x buf p.length then p.getD (x - buf).toNat 0 else memGet m x.toNat := by
  rw [txQueued, memGet_writeByte, memGet_writeByte, memGet_writeBytes _ _ _ (by rw [leBytes_length]; decide),
    memGet_writeBytes m buf p short, leBytes_length]
  refine if_congr .rfl rfl (if_congr .rfl rfl ?_)
  split
  next inside => rw [leBytes_getD inside]
  next => rfl

/-! ### receive -/

/-- A load of a range the host may read returns its little-endian number (R206). -/
theorem exec_ld_of_free {n : Size} {a : Addr} {s : State} (aligned : a.toNat % n.bytes = 0) (mapped : InMem s a n.bytes)
    (free : s.ownedBufferMeets a n.bytes = false) :
    exec (.ld n a) s = .next { s with r := BitVec.ofNat 64 (leNat (readBytes s.mem a n.bytes)) } :=
  hostReads_of_free ⟨(naturallyAligned_iff n a).2 aligned, mapped⟩ free fun bytes =>
    s.gets (BitVec.ofNat 64 (leNat bytes))

section
variable {s : State} {rest : List HostCmd} {i : Nat} {a : Addr}

/-- The tail was read: the status byte of the slot after it, at its address. -/
theorem runTurn_rxSlot_at (code : s.code = .rxSlot :: rest) (slot : i = slotAfter s.r.toNat s.drv.nRx)
    (field : rxField s.drv i 12 = a) (mapped : InMem s a 1) (free : s.ownedBufferMeets a 1 = false) :
    runTurn .host s = .next { s with code := .rxLength i :: rest, r := (memGet s.mem a.toNat).setWidth 64 } := by
  subst field
  exact runTurn_rxSlot code slot mapped free

/-- The slot is done: read the length. -/
theorem runTurn_rxLength_of_done {length : Nat} (code : s.code = .rxLength i :: rest) (dd : s.r.getLsbD 0 = true)
    (field : rxField s.drv i 8 = a) (aligned : a.toNat % Size.two.bytes = 0) (mapped : InMem s a 2)
    (free : s.ownedBufferMeets a 2 = false) (value : length = leNat (readBytes s.mem a 2)) :
    runTurn .host s = .next { s with code := .rxData i :: rest, r := BitVec.ofNat 64 length } := by
  subst field value
  rw [runTurn_host_of_code code]
  refine (if_pos dd).trans ?_
  exact exec_ld_of_free (s := { s with code := .rxData i :: rest }) aligned mapped free

/-- The length was read: the frame's bytes, with the rest put next. -/
theorem runTurn_rxData {length : Half} {buf : Addr} (code : s.code = .rxData i :: rest)
    (value : s.r.setWidth 16 = length) (field : rxField s.drv i 12 = a) (buffer : buf = s.rxBuffer i)
    (mapped : InMem s buf length.toNat) (free : s.ownedBufferMeets buf length.toNat = false) :
    runTurn .host s = .next { s with
      code := .op (.st .one a 0) :: .access (Access.wr Reg.rdt.offset (BitVec.ofNat 32 i))
        :: .ret (.received length (readBytes s.mem buf length.toNat)) :: rest } := by
  subst value field buffer
  rw [runTurn_host_of_code code]
  exact hostReads_of_free (s := { s with code := rest }) ⟨rfl, mapped⟩ free fun bytes =>
    State.pushCode { s with code := rest } [.op (.st .one (rxField s.drv i 12) 0), wrReg .rdt (BitVec.ofNat 32 i),
      .ret (.received (s.r.setWidth 16) bytes)]

/-- The frame was read: its status byte is cleared, the tail moves to the slot, and the frame is returned. -/
theorem runTurn_rxRelease {v : Result} (code : s.code = .op (.st .one a 0)
      :: .access (Access.wr Reg.rdt.offset (BitVec.ofNat 32 i)) :: .ret v :: rest)
    (may : HostMayWrite s a Size.one.bytes) (legal : Legal s.rdlen) (below : i < Stated.size s.rdlen) :
    ∃ (t1 t2 : State) (c : Half), c.toNat = i ∧ runTurn .host s = .next t1 ∧ runTurn .host t1 = .next t2
      ∧ runTurn .host t2 = .next { s with
        mem := writeBytes s.mem a [0], rdt := c, results := v :: s.results, code := rest } := by
  have clears := HostMayWrite.runTurn_store code (Nat.mod_one _) may
  obtain ⟨c, isNext, rings⟩ := runTurn_wr_rdt (s := { s with
    code := .access (Access.wr Reg.rdt.offset (BitVec.ofNat 32 i)) :: .ret v :: rest
    mem := writeBytes s.mem a [0] }) rfl legal below
  exact ⟨_, _, c, isNext, clears, rings, runTurn_ret rfl⟩

end

end Sys2Proof.Machine
end

section
/-! PROOFS. A transmit that queues its packet (R270), and a receive that returns a frame (R340, R344). -/

namespace Sys2Proof.Machine

open Sys2Proof.Stated

/-- Settles O54: three reads, four writes of ranges the host may write, the doorbell and the return. -/
theorem transmitQueuesThePacket : Obligations.TransmitQueuesThePacket := by
  intro s rest p d b buf code nonempty fits short legal nTx descAddr aligned nextAddr bufAddr descMapped nextMapped
    bufMapped noDescDesc noBufDesc nextFree noDescBuf noBufBuf done nextDone
  have tail : (s.tdt.setWidth 64).toNat = s.tdt.toNat := BitVec.toNat_setWidth_of_le (by decide)
  have status : d + 12 = txField s.drv (s.tdt.setWidth 64).toNat 12 := by rw [tail, txField_eq, descAddr]; rfl
  have mayDesc : HostMayWrite s d 16 := ⟨descMapped, noDescDesc, noBufDesc⟩
  have mayBuf : HostMayWrite s buf p.length := ⟨bufMapped, noDescBuf, noBufBuf⟩
  have below : slotAfter s.tdt.toNat s.drv.nTx < Stated.size s.tdlen := by
    rw [nTx]
    exact Nat.mod_lt _ (size_pos legal)
  rw [← getLsbD_zero_setWidth] at done nextDone
  have readHere := runTurn_txSlot (s := { s with code := .txSlot p :: rest, r := s.tdt.setWidth 64 }) rfl status
    (inMem_of_part (k := 12) descMapped (by decide)) (ownedBufferMeets_of_part (k := 12) (by decide) noBufDesc)
  rw [tail] at readHere
  have readNext := runTurn_txNext_of_done rfl (s := { s with
    code := .txNext p s.tdt.toNat :: rest, r := (memGet s.mem (d + 12).toNat).setWidth 64 }) done nextAddr nextMapped nextFree
  have copies := runTurn_txQueue_of_done (s := { s with
    code := .txQueue p s.tdt.toNat :: rest, r := (memGet s.mem b.toNat).setWidth 64 }) rfl nextDone descAddr bufAddr mayBuf
  obtain ⟨t5, t6, t7, t8, c, isNext, setsLength, setsCmd, clearsStatus, rings, returns⟩ :=
    runTurn_txDescriptor (s := { s with
      r := (memGet s.mem b.toNat).setWidth 64, mem := writeBytes s.mem buf p
      code := .op (.st .two (d + 8) (BitVec.ofNat 64 p.length)) :: .op (.st .one (d + 11) 0x09) :: .op (.st .one (d + 12) 0)
        :: .access (Access.wr Reg.tdt.offset (BitVec.ofNat 32 (slotAfter s.tdt.toNat s.drv.nTx))) :: .ret .ok :: rest })
      rfl (mayDesc.of_write (short.le.trans (by decide)) mayBuf []) aligned short legal below
  exact ⟨_, _, _, _, t5, t6, t7, t8, _, runTurn_transmit code nonempty fits, readHere, readNext, copies, setsLength, setsCmd,
    clearsStatus, rings, returns, rfl, by rw [← nTx]; exact isNext,
    memGet_txQueued s.mem d buf (short.le.trans (by decide)), rfl⟩

/-- Settles O56: three reads, the frame's bytes, the cleared status byte, the doorbell and the return. -/
theorem receiveReturnsTheFrame : Obligations.ReceiveReturnsTheFrame := by
  intro s rest n slot length d buf code large legal nRx slotIs descAddr aligned descMapped noBufStatus noBufLength noDescStatus
    done lengthIs bufAddr bufMapped noBufBuf
  have field (off : Nat) : rxField s.drv slot off = d + BitVec.ofNat 64 off := by rw [rxField_eq, descAddr]
  have mayStatus : HostMayWrite s (d + 12) Size.one.bytes :=
    ⟨inMem_of_part (k := 12) descMapped (by decide), noDescStatus, noBufStatus⟩
  have isNext : slot = (s.rdt.toNat + 1) % Stated.size s.rdlen := nRx ▸ slotIs
  have inSlot : slot = slotAfter (s.rdt.setWidth 64).toNat s.drv.nRx := by
    rw [slotAfter, BitVec.toNat_setWidth_of_le (by decide), slotIs]
  have small : length < 2 ^ 16 := by
    have := leNat_lt (readBytes s.mem (d + 8) 2)
    rwa [readBytes_length, ← lengthIs] at this
  have half : (BitVec.ofNat 16 length).toNat = length := Nat.mod_eq_of_lt small
  rw [← getLsbD_zero_setWidth] at done
  have readStatus := runTurn_rxSlot_at (s := { s with code := .rxSlot :: rest, r := s.rdt.setWidth 64 }) rfl inSlot
    (field 12) mayStatus.1 noBufStatus
  have readLength := runTurn_rxLength_of_done (s := { s with
    code := .rxLength slot :: rest, r := (memGet s.mem (d + 12).toNat).setWidth 64 }) rfl done (field 8)
    (lengthField_aligned aligned) (inMem_of_part (k := 8) descMapped (by decide)) noBufLength lengthIs
  have readFrame := runTurn_rxData (s := { s with code := .rxData slot :: rest, r := BitVec.ofNat 64 length })
    (length := BitVec.ofNat 16 length) rfl (BitVec.setWidth_ofNat_of_le (by decide) _) (field 12) bufAddr
    (half.symm ▸ bufMapped) (half.symm ▸ noBufBuf)
  rw [half] at readFrame
  obtain ⟨t5, t6, c, atSlot, clears, rings, returns⟩ := runTurn_rxRelease (s := { s with
    r := BitVec.ofNat 64 length, code := .op (.st .one (d + 12) 0) :: .access (Access.wr Reg.rdt.offset (BitVec.ofNat 32 slot))
      :: .ret (.received (BitVec.ofNat 16 length) (readBytes s.mem buf length)) :: rest }) rfl mayStatus legal
    (isNext.trans_lt (Nat.mod_lt _ (size_pos legal)))
  have clearedByte := memGet_writeByte s.mem (d + 12) (d + 12) 0
  have kept (x : Addr) (other : x ≠ d + 12) := (memGet_writeByte s.mem (d + 12) x 0).trans (if_neg other)
  exact ⟨_, _, _, _, t5, t6, _, runTurn_receive code large, readStatus, readLength, readFrame, clears, rings, returns, rfl,
    atSlot.trans isNext, clearedByte.trans (if_pos rfl), kept, rfl⟩

end Sys2Proof.Machine
end

section
/-! SUPPORT. The model's tests of a plan are R8's bounds and R714's placement, and its writes are R715's. -/

namespace Sys2Proof.Machine

open Sys2Proof.Stated

theorem ringSizeOk_iff (n : Nat) : ringSizeOk n = true ↔ n % 8 = 0 ∧ 8 ≤ n ∧ n ≤ 65528 := by
  rw [ringSizeOk, Bool.and_eq_true, Bool.and_eq_true, beq_iff_eq, decide_eq_true_iff, decide_eq_true_iff, and_assoc]
  rfl

theorem paramsOk_iff (d : Driver) : paramsOk d = true ↔ ParamsOk d := by
  simp only [paramsOk, ParamsOk, Bool.and_eq_true, ringSizeOk_iff, decide_eq_true_eq, and_assoc]

theorem pageAligned_iff (a : Addr) : pageAligned a = true ↔ a.toNat % 4096 = 0 := by
  rw [pageAligned, beq_iff_eq, ← BitVec.toNat_inj, BitVec.extractLsb'_toNat, Nat.shiftRight_zero]
  rfl

/-- The model's regions are those of the statement. -/
theorem placedRegions_eq (d : Driver) : placedRegions d = regions d := rfl

theorem disjointRegions_iff (gs : List (Addr × Nat)) :
    disjointRegions gs = true ↔ gs.Pairwise fun g h => ∀ x, ¬ (Inside x g.1 g.2 ∧ Inside x h.1 h.2) := by
  induction gs with
  | nil => simp [disjointRegions]
  | cons g gs ih =>
    have apart (h : Addr × Nat) : (!meets g.1 g.2 h.1 h.2) = true ↔ ∀ x, ¬ (Inside x g.1 g.2 ∧ Inside x h.1 h.2) := by
      rw [Bool.not_eq_true', ← Bool.not_eq_true, meets_iff, not_exists]
    simp only [disjointRegions, Bool.and_eq_true, List.all_eq_true, apart, ih, List.pairwise_cons]

theorem wellPlaced_iff (s : State) (d : Driver) : wellPlaced s.memMap d = true ↔ Placed s d := by
  simp only [wellPlaced, Placed, Bool.and_eq_true, beq_iff_eq, pageAligned_iff, List.all_eq_true, Option.isNone_iff_eq_none,
    firstMissing_eq_none_iff, disjointRegions_iff, placedRegions_eq, and_assoc]

/-- One write for each buffer is one write for each index, when there are as many. -/
theorem mapIdx_eq_map_range {α : Type} {n : Nat} {bufs : List Addr} (length : bufs.length = n) (f : Nat → Addr → α) :
    bufs.mapIdx f = (List.range n).map fun i => f i (bufs.getD i 0) := by
  refine List.ext_getElem (by simp [length]) fun i below _ => ?_
  rw [List.length_mapIdx] at below
  simp [List.getElem?_eq_getElem below]

/-- The plan is R8's and placed as R714 says: it becomes the host's, and its writes are put next (R715). -/
theorem runTurn_constructRings_of_good {s : State} {plan : Driver} {rest : List HostCmd}
    (code : s.code = .call (.constructRings plan) :: rest) (params : ParamsOk plan) (placed : Placed s plan) :
    runTurn .host s =
      .next { s with drv := plan, ie := false, code := ringCode plan ++ .setIe s.ie :: rest } := by
  have good : (paramsOk plan && wellPlaced s.memMap plan) = true :=
    Bool.and_eq_true_iff.2 ⟨(paramsOk_iff plan).2 params, (wellPlaced_iff s plan).2 placed⟩
  have constructs : constructRings plan { s with code := rest } =
      critical (ringCode plan) { s with code := rest, drv := plan } := if_pos good
  refine (runTurn_host_of_code code).trans (congrArg Host.Outcome.next (constructs.trans ?_))
  rw [critical, State.pushCode, List.append_assoc, List.singleton_append]

/-- Any other plan does nothing. -/
theorem runTurn_constructRings_of_bad {s : State} {plan : Driver} {rest : List HostCmd}
    (code : s.code = .call (.constructRings plan) :: rest) (bad : ¬ (ParamsOk plan ∧ Placed s plan)) :
    runTurn .host s = .next { s with code := rest } := by
  have fails : ¬ (paramsOk plan && wellPlaced s.memMap plan) = true := by
    rwa [Bool.and_eq_true, paramsOk_iff, wellPlaced_iff]
  exact (runTurn_host_of_code code).trans (congrArg Host.Outcome.next (if_neg fails))

end Sys2Proof.Machine
end

section
/-! PROOFS. Which rings the host constructs, and the writes of their initial descriptors (R8, R714, R715). -/

namespace Sys2Proof.Machine

open Sys2Proof.Stated

/-- Settles O59: the model's two tests are the statement's, and one write per buffer is one per index. -/
theorem ringConstruction : Obligations.RingConstruction := by
  intro s plan rest code writes
  refine ⟨fun params placed => ?_, runTurn_constructRings_of_bad code⟩
  have ⟨_, _, txBuffers, rxBuffers, _, _⟩ := placed
  rw [runTurn_constructRings_of_good code params placed, ringCode, mapIdx_eq_map_range txBuffers,
    mapIdx_eq_map_range rxBuffers]
  rfl

end Sys2Proof.Machine
end
